-- ==== Sys2Proof/Word.lean ====
section
/-! DEFINITION. The word types of the block (spec/00_scope.md R7, R9, R10): unsigned bit vectors, bit 0 the least
significant. -/

namespace Sys2Proof

/-- A host register, M = 32 bits wide (R7, R70). -/
abbrev Word := BitVec 32

/-- A `div_write`, `div_read`, `load` or `cnt` value, W_DIV = 8 bits wide (R7). -/
abbrev Div := BitVec 8

/-- A bit-counter value, W_BITS = 6 bits wide (R7, R37). -/
abbrev Count := BitVec 6

/-- A chip-select mask, W_CS = 16 bits wide (R7, R103). -/
abbrev CsMask := BitVec 16

/-- An access descriptor, 35 bits: `we` at 34, `idx` at 33:32, `wdat` at 31:0 (R100). -/
abbrev Descriptor := BitVec 35

end Sys2Proof
end

