-- ==== Sys2Proof/Config.lean ====
section
/-! DEFINITION. What one implementation fixes: the selectable parameters of spec/00_scope.md R8, and the free values of
spec/93_implementation_defined.md. -/

namespace Sys2Proof

/-- BITCOUNT_ENABLE: which edges enable the bit counter (R172, I12). -/
inductive BitcountEnable where
  | sample
  | shift
  deriving DecidableEq, Repr

/-- XFER_LAYOUT: the bit positions of the `xfer` fields (R103, I13). -/
inductive XferLayout where
  | lsbPacked
  | docLiteral
  deriving DecidableEq, Repr

/-- BUS_ADAPTER: the host port (R231, R247, I14). -/
inductive BusAdapter where
  | atomic
  | wbRegistered
  deriving DecidableEq, Repr

/-- The open and selectable parameters (R8). They are fixed for one machine: State carries them, and no step changes
them (log entry 1). -/
structure Params where
  /-- N_CS_PINS, 1..16 (R270, I9). -/
  nCsPins : Nat
  /-- HAS_MISO (R273, I10). -/
  hasMiso : Bool
  /-- START_REQUIRES_EDGE (R240, I11). -/
  startRequiresEdge : Bool
  /-- BITCOUNT_ENABLE (R172, I12). -/
  bitcountEnable : BitcountEnable
  /-- XFER_LAYOUT (R103, I13). -/
  xferLayout : XferLayout
  /-- BUS_ADAPTER (R231, R247, I14). -/
  busAdapter : BusAdapter
  deriving DecidableEq, Repr

/-- The defaults of R8. N_CS_PINS is OPEN there; 2 is what the vectors of spec/95_test_vectors.md use
(DESIGN CHOICE, log entry 2). -/
def Params.default : Params where
  nCsPins := 2
  hasMiso := true
  startRequiresEdge := true
  bitcountEnable := .sample
  xferLayout := .lsbPacked
  busAdapter := .atomic

/-- FREE VALUE (log entry 3): `rdat` in a cycle without a read acknowledge under ATOMIC or in a reset cycle
(R231, I4), by cycle. -/
opaque Config.freeRdat : Nat → Word

/-- FREE VALUE (log entry 3): the word `wb.dat_r` registers in a cycle in which no request puts an index on `adr`
(R247, I5), by cycle. -/
opaque Config.freeDatR : Nat → Word

/-- FREE VALUE (log entry 4): the level the environment presents on `miso` in a cycle for which State lists none
(R275, I6), by cycle. -/
opaque Config.freeMiso : Nat → Bool

/-- FREE VALUE (log entry 4): the level the environment presents on `mosi` in a cycle for which State lists none
(R275, I6), by cycle. -/
opaque Config.freeMosi : Nat → Bool

end Sys2Proof
end

