-- ==== Sys2Proof/Machine/State.lean ====
section
/-! DEFINITION. Everything the block holds (spec/10_state.md R32 to R46), the inputs waiting for it, and the outputs of
its last cycle, as plain data. -/

namespace Sys2Proof.Machine

/-- The four sequencer states (R41). -/
inductive Fsm where
  | idle
  | setup
  | hold
  | wait
  deriving DecidableEq, Repr

/-- The stored fields of `config` (R32, R104). `active` and `pending` are no storage: they are read from live signals. -/
structure Cfg where
  offline : Bool
  csPolarity : Bool
  clkPolarity : Bool
  clkPhase : Bool
  lsbFirst : Bool
  halfDuplex : Bool
  /-- `config` bits 15:8, reserved, stored as written (R107, log entry 11). -/
  rsv : BitVec 8
  divWrite : Div
  divRead : Div
  deriving DecidableEq, Repr

/-- The ClockGenerator's registers (R35). -/
structure ClockGen where
  cnt : Div
  bias : Bool
  clk : Bool
  deriving DecidableEq, Repr

/-- The registers of the optional bus adapter (R45, R247). Under BUS_ADAPTER = ATOMIC nothing reads or writes them
(log entry 13). -/
structure Wb where
  ack : Bool
  datR : Word
  activeQ : Bool
  pendingQ : Bool
  deriving DecidableEq, Repr

/-- One output pin: whether the block drives it, and the level, which means something only while it does
(spec/45_pins.md, before R270). -/
structure Pin where
  drive : Bool
  level : Bool
  deriving DecidableEq, Repr

/-- The outputs of one cycle (R291). -/
structure Outputs where
  ack : Bool
  rdat : Word
  clk : Pin
  mosi : Pin
  /-- One pin for each of the N_CS_PINS chip-select lines, line 0 first. -/
  csLines : List Pin
  deriving DecidableEq, Repr

/-- The request signals the host presents in a cycle with `req = 1` (R231). `adr` is a word index of any width. -/
structure Request where
  we : Bool
  adr : Nat
  wdat : Word
  deriving DecidableEq, Repr

/-- One entry of the host's script: what it presents from the cycle in which the entry comes first (R111, R112, R231). -/
inductive HostOp where
  /-- Present the request until it is acknowledged (R111). -/
  | line (r : Request)
  /-- Present the request in one cycle only, acknowledged or not: a host that withdraws or replaces it (R231). -/
  | once (r : Request)
  /-- One cycle with no access (R112 `idle`). -/
  | idle
  /-- Read `config` until a read returns `active = 0` and `pending = 0` (R112 `poll`). -/
  | poll
  deriving DecidableEq, Repr

/-- The reset input and the pin inputs of one cycle (R275, R350). -/
structure PinIn where
  rst : Bool
  miso : Bool
  mosiIn : Bool
  deriving DecidableEq, Repr

/-- The machine. The fields from `cfg` to `wb` are the spec's; `par` holds the parameters a model takes as arguments
(R8, log entry 1); `host`, `pins`, `out` and `tick` are the model's own (log entries 3, 4 and 6). -/
structure State where
  /-- The parameters of R8; no step changes them. -/
  par : Params
  /-- The stored `config` fields (R32). -/
  cfg : Cfg
  /-- The whole `xfer` word as last written (R32). -/
  xferRaw : Word
  /-- Write buffer of the next transfer (R32, R34). -/
  dataWrite : Word
  /-- Captured bits of the last completed transfer (R32, R34). -/
  dataRead : Word
  /-- A transfer is buffered, awaiting start (R32). -/
  pending : Bool
  /-- The active chip-select mask, latched at start (R32). -/
  csSel : CsMask
  /-- The ClockGenerator (R35). -/
  cg : ClockGen
  /-- The shift register (R36). -/
  sr : Word
  /-- Write bits left (R37). -/
  nWrite : Count
  /-- Read bits left (R37). -/
  nRead : Count
  /-- The sequencer state (R41). -/
  fsm : Fsm
  /-- Echo of "was writing at last shift" (R42). -/
  write0 : Bool
  /-- Sticky model fault: a transfer longer than M started (R44, R322). -/
  faultLen : Bool
  /-- Sticky model fault: a host-protocol violation under WB_REGISTERED (R44, R325). -/
  faultBus : Bool
  /-- The bus adapter's registers (R45). -/
  wb : Wb
  /-- What the host will present, first entry first. -/
  host : List HostOp
  /-- Reset and pin inputs of the coming cycles, this cycle's first. -/
  pins : List PinIn
  /-- The outputs of the last cycle (R291). -/
  out : Outputs
  /-- Cycles run so far: the counter the free values of Config are applied to. -/
  tick : Nat
  deriving DecidableEq, Repr

/-- What makes the machine stop with a fault: nothing. The block raises no exception, error or trap and has no stuck
state (R320, R327, R328); the model faults of R322 and R325 are sticky bits of State, which stop no update. -/
inductive Fault where
  deriving DecidableEq, Repr

/-- Why the model gives a cycle no meaning. -/
inductive Refusal where
  /-- Raised by an arm of exec whose access has no meaning yet (none). Safe: nothing is claimed of that cycle. -/
  | notModelled (mnemonic : String)
  deriving DecidableEq, Repr

/-- The stored `config` fields after reset (R32): `offline = 1`, every other field 0. -/
def Cfg.reset : Cfg where
  offline := true
  csPolarity := false
  clkPolarity := false
  clkPhase := false
  lsbFirst := false
  halfDuplex := false
  rsv := 0
  divWrite := 0
  divRead := 0

/-- The adapter registers after reset (R45). -/
def Wb.reset : Wb := ⟨false, 0, false, false⟩

/-- The output record before the first cycle: no acknowledge, no pin driven, `rdat` 0 (DESIGN CHOICE, log entry 6). -/
def Outputs.reset : Outputs := ⟨false, 0, ⟨false, false⟩, ⟨false, false⟩, []⟩

/-- The machine right after reset for given parameters (R46), with no request and no pin input listed. -/
def State.resetWith (p : Params) : State where
  par := p
  cfg := Cfg.reset
  xferRaw := 0
  dataWrite := 0
  dataRead := 0
  pending := false
  csSel := 0
  cg := ⟨0, false, true⟩
  sr := 0
  nWrite := 0
  nRead := 0
  fsm := .idle
  write0 := false
  faultLen := false
  faultBus := false
  wb := Wb.reset
  host := []
  pins := []
  out := Outputs.reset
  tick := 0

/-- The machine right after reset (R46) under the default parameters of R8. -/
def State.reset : State := State.resetWith Params.default

end Sys2Proof.Machine
end

