-- ==== Sys2Proof/Machine/Operands.lean ====
section
/-! DEFINITION. The layouts of the host registers (spec/30_encoding.md R101 to R107) and what a read of each returns
(spec/44_register_file.md R233, R235, R237, R247). -/

namespace Sys2Proof.Machine

/-- `xfer.cs`: the chip-select mask of an `xfer` word (R103). -/
def xferCs (l : XferLayout) (w : Word) : CsMask :=
  match l with
  | .lsbPacked => w.extractLsb' 0 16
  | .docLiteral => w.extractLsb' 16 16

/-- `xfer.write_length` (R103). -/
def xferWriteLength (l : XferLayout) (w : Word) : Count :=
  match l with
  | .lsbPacked => w.extractLsb' 16 6
  | .docLiteral => w.extractLsb' 10 6

/-- `xfer.read_length` (R103). -/
def xferReadLength (l : XferLayout) (w : Word) : Count :=
  match l with
  | .lsbPacked => w.extractLsb' 24 6
  | .docLiteral => w.extractLsb' 2 6

/-- The chip-select mask the next start latches (R33, R241). -/
def State.xferCs (s : State) : CsMask := Machine.xferCs s.par.xferLayout s.xferRaw

/-- The write length the next start loads (R33, R241). -/
def State.xferWriteLength (s : State) : Count := Machine.xferWriteLength s.par.xferLayout s.xferRaw

/-- The read length the next start loads (R33, R241). -/
def State.xferReadLength (s : State) : Count := Machine.xferReadLength s.par.xferLayout s.xferRaw

/-- A 1-bit value at bit position `k` of a host register. -/
def bitAt (b : Bool) (k : Nat) : Word := (BitVec.ofBool b).setWidth 32 <<< k

/-- The `config` word with given `active` and `pending` bits (R104, R237). -/
def configWord (c : Cfg) (active pending : Bool) : Word :=
  bitAt c.offline 0
    ||| bitAt active 1
    ||| bitAt pending 2
    ||| bitAt c.csPolarity 3
    ||| bitAt c.clkPolarity 4
    ||| bitAt c.clkPhase 5
    ||| bitAt c.lsbFirst 6
    ||| bitAt c.halfDuplex 7
    ||| c.rsv.setWidth 32 <<< 8
    ||| c.divWrite.setWidth 32 <<< 16
    ||| c.divRead.setWidth 32 <<< 24

/-- The `config` fields a write of `w` stores; `w[1]` and `w[2]` are ignored (R106, R238). -/
def Cfg.ofWord (w : Word) : Cfg where
  offline := w.getLsbD 0
  csPolarity := w.getLsbD 3
  clkPolarity := w.getLsbD 4
  clkPhase := w.getLsbD 5
  lsbFirst := w.getLsbD 6
  halfDuplex := w.getLsbD 7
  rsv := w.extractLsb' 8 8
  divWrite := w.extractLsb' 16 8
  divRead := w.extractLsb' 24 8

end Sys2Proof.Machine
end

