-- ==== Sys2Proof/Machine/Flags.lean ====
section
/-! DEFINITION. The combinational signals (spec/10_state.md R43, spec/46_cycle_step.md R292) and the pins
(spec/45_pins.md): functions of the current state and inputs only. -/

namespace Sys2Proof.Machine

/-- The reset and pin inputs of this cycle: the first listed, or, where none is listed, no reset and free levels
(R275, R350; log entry 4). -/
def State.pinIn (s : State) : PinIn :=
  match s.pins with
  | p :: _ => p
  | [] => ⟨false, Config.freeMiso s.tick, Config.freeMosi s.tick⟩

/-- `cs`: a transfer is active (R196). -/
def State.cs (s : State) : Bool := s.fsm != .idle

/-- `bw`: write bits remain (R171). -/
def State.bw (s : State) : Bool := s.nWrite != 0

/-- `br`: read bits remain (R171). -/
def State.br (s : State) : Bool := s.nRead != 0

/-- `bdone`: the bit counter is done (R171). -/
def State.bdone (s : State) : Bool := !(s.bw || s.br)

/-- `load`: the half-period count presented to the ClockGenerator (R199). -/
def State.load (s : State) : Div := if s.bw || !s.br then s.cfg.divWrite else s.cfg.divRead

/-- `zero`: the countdown is at 0 (R131). -/
def ClockGen.zero (g : ClockGen) : Bool := g.cnt == 0

/-- `edge` of the ClockGenerator (R131). -/
def ClockGen.edge (g : ClockGen) : Bool := g.zero && !g.bias

/-- `edge` (R131). -/
def State.edge (s : State) : Bool := s.cg.edge

/-- `done`: the done pulse (R202). -/
def State.done (s : State) : Bool := s.edge && s.bdone && s.fsm == .hold

/-- `start`: hand-over of the pending transfer (R240), under either value of START_REQUIRES_EDGE. -/
def State.start (s : State) : Bool :=
  if s.par.startRequiresEdge then s.pending && ((!s.cs && s.edge) || s.done)
  else s.pending && (!s.cs || s.done)

/-- `cg_ce`: the ClockGenerator's enable gate (R132, log entry 12). -/
def State.cgCe (s : State) : Bool := s.start || s.cs || !s.edge

/-- `bias_in` (R136, log entry 12). -/
def State.biasIn (s : State) : Bool := s.cfg.clkPhase

/-- `sample` (R197). -/
def State.sample (s : State) : Bool := s.fsm == .setup

/-- `shift` (R198). -/
def State.shift (s : State) : Bool := s.fsm == .hold && !s.bdone && !s.start

/-- `bc_ce`: the BitCounter's enable (R172), under either value of BITCOUNT_ENABLE. -/
def State.bcCe (s : State) : Bool :=
  match s.par.bitcountEnable with
  | .sample => s.edge && s.sample
  | .shift => s.edge && s.shift

/-- `o`: the serial output bit of a shift register (R151). -/
def serialOut (lsbFirst : Bool) (sr : Word) : Bool := if lsbFirst then sr.getLsbD 0 else sr.getLsbD 31

/-- `o` (R151). -/
def State.o (s : State) : Bool := serialOut s.cfg.lsbFirst s.sr

/-- `oe`: output enable in half-duplex (R201). -/
def State.oe (s : State) : Bool := s.write0 || s.bw

/-- `i`: the serial input bit (R273). -/
def State.i (s : State) : Bool :=
  if s.cfg.halfDuplex then s.pinIn.mosiIn
  else if s.par.hasMiso then s.pinIn.miso else s.pinIn.mosiIn

/-- Whether a write of `data` is accepted: no transfer is pending, or the one in flight is done (R232). -/
def State.dataReady (s : State) : Bool := !s.pending || s.done

/-- The `clk` pin (R271). -/
def State.clkPin (s : State) : Pin := ⟨!s.cfg.offline, (s.cg.clk && s.cs) ^^ s.cfg.clkPolarity⟩

/-- The `mosi` pin (R272). -/
def State.mosiPin (s : State) : Pin :=
  ⟨!s.cfg.offline && s.cs && (!s.cfg.halfDuplex || s.oe), s.o⟩

/-- Chip-select line `j` (R274). -/
def State.csLine (s : State) (j : Nat) : Pin :=
  ⟨!s.cfg.offline, (s.csSel.getLsbD j && s.cs) ^^ !s.cfg.csPolarity⟩

/-- The N_CS_PINS chip-select lines (R270, R274). -/
def State.csLines (s : State) : List Pin := (List.range s.par.nCsPins).map s.csLine

/-- The `config` word a read returns under ATOMIC: `active` and `pending` live (R237). -/
def State.configLive (s : State) : Word := configWord s.cfg s.cs s.pending

/-- The `config` word the adapter registers: `active` and `pending` one cycle old (R247). -/
def State.configRegistered (s : State) : Word := configWord s.cfg s.wb.activeQ s.wb.pendingQ

end Sys2Proof.Machine
end

