-- ==== Sys2Proof/Machine/Ops.lean ====
section
/-! DEFINITION. The next-state functions of the five components, their composition into one cycle without a host
access, and the operations every access is built from (spec/40 to 46). There is no memory (R70) and no exception to
take (R320, R328): `raise` sets a model fault bit (R13). -/

namespace Sys2Proof.Machine

/-- The ClockGenerator's next state (R132 to R135). -/
def ClockGen.next (g : ClockGen) (ce : Bool) (load : Div) (biasIn : Bool) : ClockGen :=
  if !ce then g
  else if !g.zero then { g with cnt := g.cnt - 1 }
  else if g.bias then { g with bias := false }
  else ⟨load >>> 1, load.getLsbD 0 && (g.clk ^^ biasIn), !g.clk⟩

/-- The sequencer's transition function (R190 to R194). -/
def Fsm.next (f : Fsm) (edge start bdone clkPhase : Bool) : Fsm :=
  if !edge then f
  else
    match f with
    | .idle => if start then (if clkPhase then .wait else .setup) else .idle
    | .setup => .hold
    | .hold => if bdone && !start then (if clkPhase then .idle else .wait) else .setup
    | .wait => if bdone then .idle else .setup

/-- One shift of the shift register; the vacated position keeps its bit (R153, log entry 11). -/
def srShift (lsbFirst : Bool) (sr : Word) : Word :=
  if lsbFirst then sr.extractLsb' 31 1 ++ sr.extractLsb' 1 31
  else sr.extractLsb' 0 31 ++ sr.extractLsb' 0 1

/-- One sample: the input bit goes into the position a shift vacates (R154). -/
def srSample (lsbFirst : Bool) (sr : Word) (i : Bool) : Word :=
  if lsbFirst then BitVec.ofBool i ++ sr.extractLsb' 0 31
  else sr.extractLsb' 1 31 ++ BitVec.ofBool i

/-- The shift register's next value: start load, shift or sample (R152 to R155, R241). -/
def State.srNext (s : State) : Word :=
  if s.start then s.dataWrite
  else if s.edge && s.shift then srShift s.cfg.lsbFirst s.sr
  else if s.edge && s.sample then srSample s.cfg.lsbFirst s.sr s.i
  else s.sr

/-- The next write count (R173, R174). -/
def State.nWriteNext (s : State) : Count :=
  if s.start then s.xferWriteLength
  else if s.bcCe && s.bw then s.nWrite - 1
  else s.nWrite

/-- The next read count: it counts only when no write bit is left (R173, R174). -/
def State.nReadNext (s : State) : Count :=
  if s.start then s.xferReadLength
  else if s.bcCe && !s.bw && s.br then s.nRead - 1
  else s.nRead

/-- The sticky model faults (R44). -/
inductive ModelFault where
  /-- `fault_len`: a transfer of more than M bits started (R322). -/
  | len
  /-- `fault_bus`: the host dropped a request before its acknowledge (R325). -/
  | bus
  deriving DecidableEq, Repr

/-- `raise Fault(k)`: sets the sticky bit `k` and nothing else (R13, R326). -/
def raise (k : ModelFault) (s : State) : State :=
  match k with
  | .len => { s with faultLen := true }
  | .bus => { s with faultBus := true }

/-- The transfer a start would hand over is longer than M = 32 bits (R241, R322): such a
transfer runs by the rules of every other (log entry 10). -/
def State.tooLong (s : State) : Bool := 32 < s.xferWriteLength.toNat + s.xferReadLength.toNat

/-- The block's next state in a cycle in which no host write is performed (R293): every right-hand side reads the
current state (R290). -/
def coreNext (s : State) : State :=
  { s with
    cg := s.cg.next s.cgCe s.load s.biasIn
    fsm := s.fsm.next s.edge s.start s.bdone s.cfg.clkPhase
    write0 := if s.edge && s.shift then s.bw else s.write0
    sr := s.srNext
    nWrite := s.nWriteNext
    nRead := s.nReadNext
    csSel := if s.start then s.xferCs else s.csSel
    dataRead := if s.done then s.sr else s.dataRead
    pending := if s.start then false else s.pending
    faultLen := s.faultLen || (s.start && s.tooLong) }

/-- The outputs of a cycle with given `ack` and `rdat`; the pins take the values the current state gives (R291). -/
def State.outputs (s : State) (ack : Bool) (rdat : Word) : Outputs :=
  ⟨ack, rdat, s.clkPin, s.mosiPin, s.csLines⟩

/-- Records the outputs of the cycle. -/
def setOut (o : Outputs) (n : State) : State := { n with out := o }

/-- The adapter's next registers: `wb.ack` is raised for a request that is ready and not yet acknowledged, `wb.dat_r`
takes the read mux, and the status copies follow the live signals (R247, log entries 12 and 14). -/
def State.wbNext (s : State) (req ready : Bool) (mux : Word) : Wb where
  ack := req && !s.wb.ack && ready
  datR := mux
  activeQ := s.cs
  pendingQ := s.pending

/-- Stores the adapter's registers. -/
def setWb (w : Wb) (n : State) : State := { n with wb := w }

/-- The commit of a `data` write: the write buffer, and `pending`, which wins over the clear by start (R234, R243). -/
def writeData (w : Word) (n : State) : State := { n with dataWrite := w, pending := true }

/-- The commit of an `xfer` write: all 32 bits (R236). -/
def writeXfer (w : Word) (n : State) : State := { n with xferRaw := w }

/-- The commit of a `config` write: every stored field (R238). -/
def writeConfig (w : Word) (n : State) : State := { n with cfg := Cfg.ofWord w }

/-- The cycle of a read. Under ATOMIC it is acknowledged at once and returns `live`, the register as the current state
gives it (R231, R232). Under WB_REGISTERED the adapter registers `registered` and answers from its registers (R247).
A read is always ready and commits nothing (R77). -/
def readCycle (live registered : Word) (s : State) : State :=
  match s.par.busAdapter with
  | .atomic => setOut (s.outputs true live) (coreNext s)
  | .wbRegistered =>
    setOut (s.outputs s.wb.ack s.wb.datR) (setWb (s.wbNext true true registered) (coreNext s))

/-- The cycle of a write that may be accepted when `ready`. Under ATOMIC it commits at the end of the cycle if ready
and has no effect otherwise (R231, R232). Under WB_REGISTERED it commits in its acknowledge cycle, without a second
acceptance test (R247). `registered` is what the adapter's read mux gives at the written index. -/
def writeCycle (ready : Bool) (registered : Word) (commit : State → State) (s : State) : State :=
  match s.par.busAdapter with
  | .atomic =>
    let n := setOut (s.outputs ready (Config.freeRdat s.tick)) (coreNext s)
    if ready then commit n else n
  | .wbRegistered =>
    let n := setOut (s.outputs s.wb.ack s.wb.datR) (setWb (s.wbNext true ready registered) (coreNext s))
    if s.wb.ack then commit n else n

/-- A cycle with no request: `ack = 0` under ATOMIC (R231); under WB_REGISTERED a request dropped while `wb.ack = 1`
sets `fault_bus` and performs no write (R325); no other breach of the hold rule is detected (log entry 9). -/
def idleCycle (s : State) : State :=
  match s.par.busAdapter with
  | .atomic => setOut (s.outputs false (Config.freeRdat s.tick)) (coreNext s)
  | .wbRegistered =>
    let n := setOut (s.outputs s.wb.ack s.wb.datR)
      (setWb (s.wbNext false false (Config.freeDatR s.tick)) (coreNext s))
    if s.wb.ack then raise .bus n else n

/-- A cycle with `rst = 1`: the next state is the reset state, whatever the state and the other inputs are; no access
is performed, `ack = 0` under either adapter (log entry 15), and the pins take the values the current state gives
(R350); the model fault bits are cleared with the rest (log entry 7). The parameters, the inputs still
to come and the cycle count are no state of the block and stay. -/
def resetCycle (s : State) : State :=
  { State.resetWith s.par with
    host := s.host
    pins := s.pins
    tick := s.tick
    out := s.outputs false (Config.freeRdat s.tick) }

end Sys2Proof.Machine
end

