-- ==== Sys2Proof/Machine/ReadAccess.lean ====
section
/-! DEFINITION. The meanings of the read accesses (spec/44_register_file.md R233, R235, R237, R239): the cycle in which
the host presents the access, the whole block's step of that cycle included. -/

namespace Sys2Proof.Machine

/-- `RD_DATA` returns `data_read`, the value before a capture in the same cycle (R233). -/
def execRdData (s : State) : Host.Outcome State Fault Refusal := .next (readCycle s.dataRead s.dataRead s)

/-- `RD_XFER` returns the word last written (R235). -/
def execRdXfer (s : State) : Host.Outcome State Fault Refusal := .next (readCycle s.xferRaw s.xferRaw s)

/-- `RD_CONFIG` returns the stored fields with the live `active` and `pending` (R237). -/
def execRdConfig (s : State) : Host.Outcome State Fault Refusal :=
  .next (readCycle s.configLive s.configRegistered s)

/-- `RD_CONFIG3` behaves exactly as `RD_CONFIG` (R239, log entry 11). -/
def execRdConfig3 (s : State) : Host.Outcome State Fault Refusal :=
  .next (readCycle s.configLive s.configRegistered s)

end Sys2Proof.Machine
end

