-- ==== Sys2Proof/Machine/WriteAccess.lean ====
section
/-! DEFINITION. The meanings of the write accesses (spec/44_register_file.md R234, R236, R238, R239): the cycle in which
the host presents the access, the whole block's step of that cycle included. -/

namespace Sys2Proof.Machine

/-- `WR_DATA` fills the write buffer and sets `pending` when accepted, and stalls otherwise (R232, R234). -/
def execWrData (w : Word) (s : State) : Host.Outcome State Fault Refusal :=
  .next (writeCycle s.dataReady s.dataRead (writeData w) s)

/-- `WR_XFER` stores the word for the next start (R236). -/
def execWrXfer (w : Word) (s : State) : Host.Outcome State Fault Refusal :=
  .next (writeCycle true s.xferRaw (writeXfer w) s)

/-- `WR_CONFIG` stores every configuration field (R238). -/
def execWrConfig (w : Word) (s : State) : Host.Outcome State Fault Refusal :=
  .next (writeCycle true s.configRegistered (writeConfig w) s)

/-- `WR_CONFIG3` behaves exactly as `WR_CONFIG` (R239, log entry 11). -/
def execWrConfig3 (w : Word) (s : State) : Host.Outcome State Fault Refusal :=
  .next (writeCycle true s.configRegistered (writeConfig w) s)

end Sys2Proof.Machine
end

