-- ==== Sys2Proof/Syntax.lean ====
section
/-! DEFINITION. The instructions of the block: the eight host accesses of the access map (spec/30_encoding.md R108,
spec/opcode_table.json), one constructor per row. -/

namespace Sys2Proof

/-- One host access (R14, R108). A read has no operand; a write has one, the 32-bit word `wdat` taken whole (R101). -/
inductive Instr where
  /-- `RD_DATA`: read `data` (R233). -/
  | rdData
  /-- `RD_XFER`: read `xfer` (R235). -/
  | rdXfer
  /-- `RD_CONFIG`: read `config` (R237). -/
  | rdConfig
  /-- `RD_CONFIG3`: read through the index-3 alias of `config` (R239). -/
  | rdConfig3
  /-- `WR_DATA`: write `data` (R234). -/
  | wrData (wdat : Word)
  /-- `WR_XFER`: write `xfer` (R236). -/
  | wrXfer (wdat : Word)
  /-- `WR_CONFIG`: write `config` (R238). -/
  | wrConfig (wdat : Word)
  /-- `WR_CONFIG3`: write through the index-3 alias of `config` (R239). -/
  | wrConfig3 (wdat : Word)
  deriving DecidableEq, Repr

end Sys2Proof
end

