-- ==== Sys2Proof/Machine/Dispatch.lean ====
section
/-! DEFINITION. One arm per access of the access map (spec/30_encoding.md R108). -/

namespace Sys2Proof.Machine

/-- The block's cycle in which the host presents access `i` and `rst = 0`: one system-clock cycle of the whole block,
whether the access is performed in it or not (log entry 16). -/
def exec (i : Instr) (s : State) : Host.Outcome State Fault Refusal :=
  match i with
  | .rdData => Sys2Proof.Machine.execRdData s
  | .rdXfer => Sys2Proof.Machine.execRdXfer s
  | .rdConfig => Sys2Proof.Machine.execRdConfig s
  | .rdConfig3 => Sys2Proof.Machine.execRdConfig3 s
  | .wrData w => Sys2Proof.Machine.execWrData w s
  | .wrXfer w => Sys2Proof.Machine.execWrXfer w s
  | .wrConfig w => Sys2Proof.Machine.execWrConfig w s
  | .wrConfig3 w => Sys2Proof.Machine.execWrConfig3 w s

end Sys2Proof.Machine
end

