-- ==== Sys2Proof/WellFormed.lean ====
section
/-! DEFINITION. What a well-formed instruction, descriptor word and parameter choice are. -/

namespace Sys2Proof

/-- Every instruction is well formed: no descriptor is illegal, reserved or a hint, and a write's `wdat` may hold any
value (R109). The operand's width is in its type. -/
def Instr.wellFormed (i : Instr) : Bool :=
  match i with
  | .rdData => true
  | .rdXfer => true
  | .rdConfig => true
  | .rdConfig3 => true
  | .wrData _ => true
  | .wrXfer _ => true
  | .wrConfig _ => true
  | .wrConfig3 _ => true

/-- A number is an access descriptor when it has no bit above bit 34 (R100). -/
def isDescriptor (w : Nat) : Bool := w < 2 ^ 35

/-- N_CS_PINS lies in 1..16; the other parameters take every value of their types (R8). -/
def Params.wellFormed (p : Params) : Bool := 1 ≤ p.nCsPins && p.nCsPins ≤ 16

end Sys2Proof
end

