-- ==== Sys2Proof/Decode.lean ====
section
/-! DEFINITION. The decoder of access descriptors and the encoder beside it (spec/30_encoding.md R100, R101, R108). -/

namespace Sys2Proof

/-- Why a word is no access. -/
inductive DecodeError where
  /-- The word has a bit above bit 34, so it is no 35-bit descriptor (R100). -/
  | notADescriptor
  deriving DecidableEq, Repr

/-- `we`, bit 34 (R100). -/
def Descriptor.we (d : Descriptor) : Bool := d.getLsbD 34

/-- `idx`, bits 33:32 (R100). -/
def Descriptor.idx (d : Descriptor) : BitVec 2 := d.extractLsb' 32 2

/-- `wdat`, bits 31:0 (R100). -/
def Descriptor.wdat (d : Descriptor) : Word := d.extractLsb' 0 32

/-- The access a descriptor selects: one of eight for every one of the 2^35 descriptors (R108, R109). A read ignores
`wdat` (R100). -/
def decodeDescriptor (d : Descriptor) : Instr :=
  if d.we then
    if d.idx = 0 then .wrData d.wdat
    else if d.idx = 1 then .wrXfer d.wdat
    else if d.idx = 2 then .wrConfig d.wdat
    else .wrConfig3 d.wdat
  else
    if d.idx = 0 then .rdData
    else if d.idx = 1 then .rdXfer
    else if d.idx = 2 then .rdConfig
    else .rdConfig3

/-- The decoder, total on any number: a word with a bit above bit 34 is rejected by name. -/
def decode (w : Nat) : Except DecodeError Instr :=
  if isDescriptor w then .ok (decodeDescriptor (BitVec.ofNat 35 w)) else .error .notADescriptor

/-- The instruction the decoder reads from an instruction whose bits are `w`, bit 0 the least significant, of which
`nbits` are given and the rest are 0. -/
def decodeTableWord (nbits w : Nat) : Option Instr :=
  match decode (w % 2 ^ nbits) with
  | .ok i => some i
  | .error _ => none

/-- `we` of an access (R108). -/
def Instr.we (i : Instr) : Bool :=
  match i with
  | .rdData => false
  | .rdXfer => false
  | .rdConfig => false
  | .rdConfig3 => false
  | .wrData _ => true
  | .wrXfer _ => true
  | .wrConfig _ => true
  | .wrConfig3 _ => true

/-- `idx` of an access (R108). -/
def Instr.idx (i : Instr) : BitVec 2 :=
  match i with
  | .rdData => 0
  | .rdXfer => 1
  | .rdConfig => 2
  | .rdConfig3 => 3
  | .wrData _ => 0
  | .wrXfer _ => 1
  | .wrConfig _ => 2
  | .wrConfig3 _ => 3

/-- `wdat` of an access; a read's is ignored, and encoded as 0 (R100, R101; log entry 5). -/
def Instr.wdat (i : Instr) : Word :=
  match i with
  | .rdData => 0
  | .rdXfer => 0
  | .rdConfig => 0
  | .rdConfig3 => 0
  | .wrData w => w
  | .wrXfer w => w
  | .wrConfig w => w
  | .wrConfig3 w => w

/-- The descriptor `we << 34 | idx << 32 | wdat` (R100). -/
def descriptorOf (we : Bool) (idx : BitVec 2) (wdat : Word) : Descriptor :=
  (BitVec.ofBool we).setWidth 35 <<< 34 ||| idx.setWidth 35 <<< 32 ||| wdat.setWidth 35

/-- The descriptor of an instruction. -/
def encode (i : Instr) : Descriptor := descriptorOf i.we i.idx i.wdat

/-- One row of the access map as spec/opcode_table.json gives it. -/
structure TableRow where
  mnemonic : String
  pattern : Descriptor
  mask : Descriptor
  deriving DecidableEq, Repr

/-- The access map: the match and mask of each row of spec/opcode_table.json (R108). -/
def accessMap : List TableRow :=
  [⟨"RD_DATA",    0x000000000, 0x700000000⟩,
   ⟨"RD_XFER",    0x100000000, 0x700000000⟩,
   ⟨"RD_CONFIG",  0x200000000, 0x700000000⟩,
   ⟨"RD_CONFIG3", 0x300000000, 0x700000000⟩,
   ⟨"WR_DATA",    0x400000000, 0x700000000⟩,
   ⟨"WR_XFER",    0x500000000, 0x700000000⟩,
   ⟨"WR_CONFIG",  0x600000000, 0x700000000⟩,
   ⟨"WR_CONFIG3", 0x700000000, 0x700000000⟩]

/-- The mnemonic of an instruction (R108). -/
def Instr.mnemonic (i : Instr) : String :=
  match i with
  | .rdData => "RD_DATA"
  | .rdXfer => "RD_XFER"
  | .rdConfig => "RD_CONFIG"
  | .rdConfig3 => "RD_CONFIG3"
  | .wrData _ => "WR_DATA"
  | .wrXfer _ => "WR_XFER"
  | .wrConfig _ => "WR_CONFIG"
  | .wrConfig3 _ => "WR_CONFIG3"

end Sys2Proof
end

