-- ==== Sys2Proof/Machine/HostPort.lean ====
section
/-! DEFINITION. The host side of the port (spec/44_register_file.md R231, spec/30_encoding.md R111, R112,
spec/46_cycle_step.md R297): which access is presented in a cycle, how the host's script goes on after it, and the
pseudo-operations of the notation. -/

namespace Sys2Proof.Machine

/-- The access descriptor of the request signals; only `adr[1:0]` is decoded (R72, R100). -/
def Request.descriptor (r : Request) : Descriptor := descriptorOf r.we (BitVec.ofNat 2 r.adr) r.wdat

/-- The request signals that carry a descriptor. -/
def Request.ofDescriptor (d : Descriptor) : Request := ⟨d.we, d.idx.toNat, d.wdat⟩

/-- The request that presents an instruction. -/
def Request.ofInstr (i : Instr) : Request := Request.ofDescriptor (encode i)

/-- The request of one `config` read of a `poll` (R112). -/
def pollRequest : Request := Request.ofInstr .rdConfig

/-- What the script's entry presents in this cycle: a request, or none (R111). -/
def HostOp.request (op : HostOp) : Option Request :=
  match op with
  | .line r => some r
  | .once r => some r
  | .idle => none
  | .poll => some pollRequest

/-- The access the host presents this cycle; none where the script is empty (log entry 6). -/
def State.request (s : State) : Option Request :=
  match s.host with
  | op :: _ => op.request
  | [] => none

/-- The instruction presented this cycle. -/
def State.presented (s : State) : Option Instr := s.request.map fun r => decodeDescriptor r.descriptor

/-- Whether the entry is over after a cycle with these outputs: a line when it is acknowledged, a `poll` when a read
is acknowledged with `(v & 6) = 0` (R111, R112). -/
def HostOp.over (op : HostOp) (o : Outputs) : Bool :=
  match op with
  | .line _ => o.ack
  | .once _ => true
  | .idle => true
  | .poll => o.ack && (o.rdat &&& 6) == 0

/-- The script after a cycle with these outputs. -/
def hostNext (l : List HostOp) (o : Outputs) : List HostOp :=
  match l with
  | op :: rest => if op.over o then rest else op :: rest
  | [] => []

/-- The environment goes on by one cycle: the host's script by what the cycle answered, the pin inputs and the cycle
count by one. -/
def advance (s : State) : State :=
  { s with
    host := hostNext s.host s.out
    pins := s.pins.tail
    tick := s.tick + 1 }

/-- The environment's step after a cycle's outcome. -/
def advanceOutcome (o : Host.Outcome State Fault Refusal) : Host.Outcome State Fault Refusal :=
  match o with
  | .next t => .next (advance t)
  | .fault r => .fault r
  | .refused r => .refused r

/-- No reset in the coming cycle. -/
def clearRst (l : List PinIn) : List PinIn :=
  match l with
  | p :: rest => { p with rst := false } :: rest
  | [] => []

/-- The host presents the descriptor `d` next, until it is acknowledged, and no reset comes with it. -/
def State.present (s : State) (d : Descriptor) : State :=
  { s with
    host := .line (Request.ofDescriptor d) :: s.host
    pins := clearRst s.pins }

/-- One line `rd`/`wr` of the notation (R111). -/
def lineOf (i : Instr) : HostOp := .line (Request.ofInstr i)

/-- `idle N` (R112). -/
def idleOps (n : Nat) : List HostOp := List.replicate n .idle

/-- `setcfg F, DW, DR` (R112). -/
def setcfg (f : Word) (dw dr : Div) : HostOp :=
  lineOf (.wrConfig ((f &&& 0xF9) ||| dw.setWidth 32 <<< 16 ||| dr.setWidth 32 <<< 24))

/-- The word of `setxfer CS, WL, RL` under each layout (R112). -/
def xferWord (l : XferLayout) (cs : CsMask) (wl rl : Count) : Word :=
  match l with
  | .lsbPacked => cs.setWidth 32 ||| wl.setWidth 32 <<< 16 ||| rl.setWidth 32 <<< 24
  | .docLiteral => cs.setWidth 32 <<< 16 ||| wl.setWidth 32 <<< 10 ||| rl.setWidth 32 <<< 2

/-- `setxfer CS, WL, RL` (R112). -/
def setxfer (l : XferLayout) (cs : CsMask) (wl rl : Count) : HostOp := lineOf (.wrXfer (xferWord l cs wl rl))

/-- `xfer CS, WL, RL, D` (R112). -/
def xferOps (l : XferLayout) (cs : CsMask) (wl rl : Count) (d : Word) : List HostOp :=
  [setxfer l cs wl rl, lineOf (.wrData d)]

end Sys2Proof.Machine
end

