-- ==== Sys2Proof/Machine/Cycle.lean ====
section
/-! DEFINITION. What the inputs of one system-clock cycle select: reset, an access, or no access (spec/46_cycle_step.md
R291, spec/70_reset_and_hazards.md R350). -/

namespace Sys2Proof.Machine

/-- One cycle of the block under this cycle's inputs: reset wins (R350); otherwise the access presented is run, or the
block runs a cycle without one (R231). -/
def cycle (s : State) : Host.Outcome State Fault Refusal :=
  if s.pinIn.rst then .next (resetCycle s)
  else
    match s.presented with
    | some i => exec i s
    | none => .next (idleCycle s)

end Sys2Proof.Machine
end

