-- ==== Sys2Proof/Machine/Step.lean ====
section
/-! DEFINITION. One system-clock cycle (spec/46_cycle_step.md R290, R291, R297). -/

namespace Sys2Proof.Machine

/-- One step: a cycle, and the environment's move to the next one. -/
def step (s : State) : Host.Outcome State Fault Refusal := advanceOutcome (cycle s)

/-- `s` with the access whose descriptor is `w` presented next, so that the very next step runs it. -/
def State.withFetchWord (s : State) (nbits w : Nat) : State :=
  s.present (BitVec.ofNat 35 (w % 2 ^ nbits))

end Sys2Proof.Machine
end

