-- ==== Sys2Proof/Safety.lean ====
section
/-! DEFINITION. The terms claims are stated in: runs, the model-fault premise, what one cycle does to each component as
the pseudocode of spec/46_cycle_step.md R293 gives it, the invariants, and the register of one transfer. -/

namespace Sys2Proof.Machine

/-! ## Runs -/

/-- No model fault is set: the premise of a claim about what the transfers of a run deliver (R44). -/
def State.noFault (s : State) : Prop := s.faultLen = false ∧ s.faultBus = false

/-- The state after one step (the machine never stops, so a stop is left where it is). -/
def stepNext (s : State) : State :=
  match step s with
  | .next t => t
  | .fault _ => s
  | .refused _ => s

/-- The state after `k` steps (R297). -/
def State.after (s : State) (k : Nat) : State :=
  match k with
  | 0 => s
  | n + 1 => stepNext (s.after n)

/-- No reset in the first `k` cycles of the run from `s`. -/
def State.resetFree (s : State) (k : Nat) : Prop := ∀ j, j < k → (s.after j).pinIn.rst = false

/-! ## One cycle, component by component -/

/-- The ClockGenerator's move (R132 to R136). -/
def ClockMoved (s t : State) : Prop :=
  (s.cgCe = false → t.cg = s.cg) ∧
  (s.cgCe = true → s.cg.cnt ≠ 0 → t.cg = ⟨s.cg.cnt - 1, s.cg.bias, s.cg.clk⟩) ∧
  (s.cgCe = true → s.cg.cnt = 0 → s.cg.bias = true → t.cg = ⟨0, false, s.cg.clk⟩) ∧
  (s.cgCe = true → s.cg.cnt = 0 → s.cg.bias = false →
    t.cg = ⟨s.load >>> 1, s.load.getLsbD 0 && (s.cg.clk != s.cfg.clkPhase), !s.cg.clk⟩)

/-- The sequencer's move (R190 to R194) and the echo `write0` (R198, R200). -/
def SequencerMoved (s t : State) : Prop :=
  (s.edge = false → t.fsm = s.fsm) ∧
  (s.edge = true → s.fsm = .idle → s.start = false → t.fsm = .idle) ∧
  (s.edge = true → s.fsm = .idle → s.start = true → t.fsm = if s.cfg.clkPhase then .wait else .setup) ∧
  (s.edge = true → s.fsm = .setup → t.fsm = .hold) ∧
  (s.edge = true → s.fsm = .hold → s.bdone = true → s.start = false →
    t.fsm = if s.cfg.clkPhase then .idle else .wait) ∧
  (s.edge = true → s.fsm = .hold → (s.bdone = false ∨ s.start = true) → t.fsm = .setup) ∧
  (s.edge = true → s.fsm = .wait → t.fsm = if s.bdone then .idle else .setup) ∧
  t.write0 = (if s.edge = true ∧ s.fsm = .hold ∧ s.bdone = false ∧ s.start = false then s.bw else s.write0)

/-- The input bit the block samples (R273). -/
def sampledInput (s : State) : Bool :=
  if s.cfg.halfDuplex = true ∨ s.par.hasMiso = false then s.pinIn.mosiIn else s.pinIn.miso

/-- The shift register's move: start load, shift, sample, or none (R152 to R154, R241), bit by bit. -/
def ShiftMoved (s t : State) : Prop :=
  (s.start = true → t.sr = s.dataWrite) ∧
  (s.edge = true → s.fsm = .hold → s.bdone = false → s.start = false → ∀ k, k < 32 →
    t.sr.getLsbD k =
      if s.cfg.lsbFirst then s.sr.getLsbD (if k = 31 then 31 else k + 1)
      else s.sr.getLsbD (if k = 0 then 0 else k - 1)) ∧
  (s.edge = true → s.fsm = .setup → ∀ k, k < 32 →
    t.sr.getLsbD k =
      if k = (if s.cfg.lsbFirst then 31 else 0) then sampledInput s else s.sr.getLsbD k) ∧
  (s.start = false → (s.edge = false ∨ s.fsm = .idle ∨ s.fsm = .wait ∨ s.done = true) → t.sr = s.sr)

/-- The edges that enable the bit counter (R172). -/
def countEdge (s : State) : Prop :=
  s.edge = true ∧
    ((s.par.bitcountEnable = .sample ∧ s.fsm = .setup) ∨
     (s.par.bitcountEnable = .shift ∧ s.fsm = .hold ∧ s.bdone = false ∧ s.start = false))

/-- The bit counter's move (R172 to R174). -/
def CountMoved (s t : State) : Prop :=
  (s.start = true → t.nWrite = s.xferWriteLength ∧ t.nRead = s.xferReadLength) ∧
  (countEdge s → s.nWrite ≠ 0 → t.nWrite = s.nWrite - 1 ∧ t.nRead = s.nRead) ∧
  (countEdge s → s.nWrite = 0 → s.nRead ≠ 0 → t.nWrite = 0 ∧ t.nRead = s.nRead - 1) ∧
  (s.start = false → (¬ countEdge s ∨ (s.nWrite = 0 ∧ s.nRead = 0)) → t.nWrite = s.nWrite ∧ t.nRead = s.nRead)

/-- What start latches beside the counters and what done captures (R241, R242, R322). -/
def HandoverMoved (s t : State) : Prop :=
  t.csSel = (if s.start then s.xferCs else s.csSel) ∧
  t.dataRead = (if s.done then s.sr else s.dataRead) ∧
  (t.faultLen = true ↔
    s.faultLen = true ∨ (s.start = true ∧ s.xferWriteLength.toNat + s.xferReadLength.toNat > 32))

/-- The whole block's move in one cycle, what a host write changes left out (R293). It holds the enable gate (decision
D3), the bias input (D4) and the bit a shift leaves in the vacated position (D15): log entries 11 and 12. -/
def CoreMoved (s t : State) : Prop :=
  ClockMoved s t ∧ SequencerMoved s t ∧ ShiftMoved s t ∧ CountMoved s t ∧ HandoverMoved s t

/-- `pending` in a cycle without an accepted `data` write (R243). -/
def PendingMoved (s t : State) : Prop := t.pending = if s.start then false else s.pending

/-- The parameters, the bus fault and the inputs still to come are as before. -/
def RestKept (s t : State) : Prop :=
  t.par = s.par ∧ t.faultBus = s.faultBus ∧ t.host = s.host ∧ t.pins = s.pins ∧ t.tick = s.tick

/-- The pins of the cycle, as the state before it gives them (R271, R272, R274, R291). -/
def PinsShown (s t : State) : Prop :=
  t.out.clk = ⟨!s.cfg.offline, (if s.fsm = .idle then false else s.cg.clk) != s.cfg.clkPolarity⟩ ∧
  (t.out.mosi.drive = true ↔
    s.cfg.offline = false ∧ s.fsm ≠ .idle ∧ (s.cfg.halfDuplex = false ∨ s.write0 = true ∨ s.nWrite ≠ 0)) ∧
  t.out.mosi.level = s.sr.getLsbD (if s.cfg.lsbFirst then 0 else 31) ∧
  t.out.csLines.length = s.par.nCsPins ∧
  ∀ j, j < s.par.nCsPins →
    t.out.csLines[j]? =
      some ⟨!s.cfg.offline,
        if s.fsm ≠ .idle ∧ s.csSel.getLsbD j = true then s.cfg.csPolarity else !s.cfg.csPolarity⟩

/-- Two states agree on everything but the outputs of the last cycle. -/
def SameButOutputs (s t : State) : Prop := { s with out := t.out } = t

/-! ## Invariants -/

/-- The invariant of every reachable state (R295 items 1 and 2; R45 and R325 for ATOMIC). -/
structure Inv (s : State) : Prop where
  /-- The parameters are legal (R8). -/
  params : s.par.wellFormed = true
  /-- `cnt` is loaded only with `load >> 1` (R295.1). -/
  cnt : s.cg.cnt.toNat ≤ 127
  /-- Under START_REQUIRES_EDGE = true the counters are 0 in IDLE (R295.2). -/
  idle : s.par.startRequiresEdge = true → s.fsm = .idle → s.nWrite = 0 ∧ s.nRead = 0
  /-- Under ATOMIC the adapter does not exist: its registers stay as reset and no bus fault is raised (R45, R325). -/
  atomic : s.par.busAdapter = .atomic → s.wb = Wb.reset ∧ s.faultBus = false

/-- The level of `cg.clk` in each sequencer state while `clk_phase` does not change (R296, R278). -/
structure ClockParity (s : State) : Prop where
  idle : s.fsm = .idle → s.cg.clk = true
  setup : s.fsm = .setup → s.cg.clk = s.cfg.clkPhase
  hold : s.fsm = .hold → s.cg.clk = !s.cfg.clkPhase
  wait : s.fsm = .wait → s.cg.clk = false
  /-- For `clk_phase = 0` WAIT comes at the end of a transfer only (R194). -/
  waitDone : s.fsm = .wait → s.cfg.clkPhase = false → s.bdone = true

/-! ## The register of one transfer -/

/-- The shift register after a list of input bits, first bit first: a sample for the first, a shift and a sample for
each further one (R156). -/
def afterSamples (lsbFirst : Bool) (d : Word) (ins : List Bool) : Word :=
  match ins with
  | [] => d
  | i :: rest => rest.foldl (fun sr b => srSample lsbFirst (srShift lsbFirst sr) b) (srSample lsbFirst d i)

/-- The same in loopback: every input bit is the output bit (R160). `n` counts the samples after the first. -/
def afterLoopback (lsbFirst : Bool) (d : Word) (n : Nat) : Word :=
  match n with
  | 0 => srSample lsbFirst d (serialOut lsbFirst d)
  | k + 1 =>
    let sr := srShift lsbFirst (afterLoopback lsbFirst d k)
    srSample lsbFirst sr (serialOut lsbFirst sr)

/-- The bits the run from `s` samples in its first `k` cycles, in order (R154, R156). -/
def State.samples (s : State) (k : Nat) : List Bool :=
  match k with
  | 0 => []
  | n + 1 =>
    let u := s.after n
    if u.edge = true ∧ u.fsm = .setup then s.samples n ++ [sampledInput u] else s.samples n

/-- The ClockGenerator after `k` further enabled cycles with a constant load and phase (R137). -/
def clockAfter (load : Div) (phase : Bool) (g : ClockGen) (k : Nat) : ClockGen :=
  match k with
  | 0 => g
  | n + 1 => (clockAfter load phase g n).next true load phase

/-- `s` with another value of `offline`. -/
def withOffline (b : Bool) (s : State) : State := { s with cfg := { s.cfg with offline := b } }

/-- `u` is `s` but for `offline` and what shows it: the drive of the output pins, and bit 0 of a `config` word that was
read (the outputs' and the adapter's). Every other output agrees (R276). -/
structure DifferInOffline (s u : State) : Prop where
  state : u = { s with
    cfg := { s.cfg with offline := u.cfg.offline }, wb := { s.wb with datR := u.wb.datR }, out := u.out }
  datR : ∀ k, 0 < k → u.wb.datR.getLsbD k = s.wb.datR.getLsbD k
  ack : u.out.ack = s.out.ack
  rdat : ∀ k, 0 < k → u.out.rdat.getLsbD k = s.out.rdat.getLsbD k
  clk : u.out.clk.level = s.out.clk.level
  mosi : u.out.mosi.level = s.out.mosi.level
  csLines : u.out.csLines.map Pin.level = s.out.csLines.map Pin.level

end Sys2Proof.Machine
end

