-- ==== Sys2Proof/Certificates/Slice0/Obligations.lean ====
section
/-! DEFINITION. The statements for the provers. OBLIGATIONS.json gives each its rule; a docstring names the decision
of spec/92_eei_decisions.md, or the log entry, a statement rests on where it is no plain rule. -/

open Sys2Proof Sys2Proof.Machine

/-! ## Encoding (spec/30_encoding.md) -/

/-- Decoding the descriptor of any access gives the access back, every `wdat` included (the descriptor is decision
D24's). -/
def Obligations.EncodeThenDecodeGivesTheAccess : Prop :=
  ∀ i : Instr, i.wellFormed = true → decode (encode i).toNat = .ok i

/-- Every one of the 2^35 descriptors selects exactly the access whose row of the access map it matches, and a write's
operand is its bits 31:0 (R100, R108, R109; decisions D10, D24). That a number with a higher bit is no descriptor is
log entry 5. -/
def Obligations.DecoderFollowsTheAccessMap : Prop :=
  (∀ (d : Descriptor) (row : TableRow), row ∈ accessMap →
    (d &&& row.mask = row.pattern ↔ (decodeDescriptor d).mnemonic = row.mnemonic)) ∧
  (∀ (d : Descriptor) (k : Nat), d.getLsbD 34 = true → k < 32 →
    (decodeDescriptor d).wdat.getLsbD k = d.getLsbD k) ∧
  (∀ w : Nat, w < 2 ^ 35 ↔ ∃ i, decode w = .ok i)

/-- Every descriptor of the programs P1 to P5 and of the vectors RF-1 to RF-3 and RF-7 of spec/95_test_vectors.md
decodes to the access it stands for; where a vector gives the access alone, its descriptor is that file's section 0's. -/
def Obligations.SpecDescriptorsDecode : Prop :=
  decodeTableWord 40 0x6050300A0 = some (.wrConfig 0x050300A0) ∧
  decodeTableWord 40 0x500040001 = some (.wrXfer 0x00040001) ∧
  decodeTableWord 40 0x490000000 = some (.wrData 0x90000000) ∧
  decodeTableWord 40 0x602020000 = some (.wrConfig 0x02020000) ∧
  decodeTableWord 40 0x4F0000000 = some (.wrData 0xF0000000) ∧
  decodeTableWord 40 0x4A0000000 = some (.wrData 0xA0000000) ∧
  decodeTableWord 40 0x450000000 = some (.wrData 0x50000000) ∧
  decodeTableWord 40 0x603010078 = some (.wrConfig 0x03010078) ∧
  decodeTableWord 40 0x508080002 = some (.wrXfer 0x08080002) ∧
  decodeTableWord 40 0x4000000C3 = some (.wrData 0x000000C3) ∧
  decodeTableWord 40 0x700000000 = some (.wrConfig3 0x00000000) ∧
  decodeTableWord 40 0x500000001 = some (.wrXfer 0x00000001) ∧
  decodeTableWord 40 0x4FFFFFFFF = some (.wrData 0xFFFFFFFF) ∧
  decodeTableWord 40 0x600000020 = some (.wrConfig 0x00000020) ∧
  decodeTableWord 40 0x400000000 = some (.wrData 0x00000000) ∧
  decodeTableWord 40 0x6FFFFFFFF = some (.wrConfig 0xFFFFFFFF) ∧
  decodeTableWord 40 0x600000006 = some (.wrConfig 0x00000006) ∧
  decodeTableWord 40 0x5FFFFFFFF = some (.wrXfer 0xFFFFFFFF) ∧
  decodeTableWord 40 0x53F3F8001 = some (.wrXfer 0x3F3F8001) ∧
  decodeTableWord 40 0x700070020 = some (.wrConfig3 0x00070020) ∧
  decodeTableWord 40 0x000000000 = some .rdData ∧
  decodeTableWord 40 0x100000000 = some .rdXfer ∧
  decodeTableWord 40 0x200000000 = some .rdConfig ∧
  decodeTableWord 40 0x300000000 = some .rdConfig3

/-- The port decodes only `adr[1:0]`: two requests that differ in higher address bits present the same access
(R72; decision D10). -/
def Obligations.OnlyTheLowAddressBitsAreDecoded : Prop :=
  ∀ r q : Request, r.we = q.we → r.wdat = q.wdat → r.adr % 4 = q.adr % 4 →
    decodeDescriptor r.descriptor = decodeDescriptor q.descriptor

/-- The bit positions of the `xfer` fields under both layouts (R103; decision D9), bit by bit; `setxfer CS, WL, RL`
followed by that field decoding gives CS, WL and RL, under both layouts; and `setcfg` writes the flag and divisor fields
it names (R104, R112). -/
def Obligations.PseudoOperationsPlaceTheFields : Prop :=
  (∀ (w : Word) (k : Nat),
    (k < 16 → (xferCs .lsbPacked w).getLsbD k = w.getLsbD k ∧
      (xferCs .docLiteral w).getLsbD k = w.getLsbD (16 + k)) ∧
    (k < 6 → (xferWriteLength .lsbPacked w).getLsbD k = w.getLsbD (16 + k) ∧
      (xferReadLength .lsbPacked w).getLsbD k = w.getLsbD (24 + k) ∧
      (xferWriteLength .docLiteral w).getLsbD k = w.getLsbD (10 + k) ∧
      (xferReadLength .docLiteral w).getLsbD k = w.getLsbD (2 + k))) ∧
  (∀ (l : XferLayout) (cs : CsMask) (wl rl : Count),
    xferCs l (xferWord l cs wl rl) = cs ∧ xferWriteLength l (xferWord l cs wl rl) = wl ∧
    xferReadLength l (xferWord l cs wl rl) = rl) ∧
  (∀ (f : Word) (dw dr : Div), f < 256 →
    ∃ w, setcfg f dw dr = lineOf (.wrConfig w) ∧ (Cfg.ofWord w).divWrite = dw ∧ (Cfg.ofWord w).divRead = dr ∧
      (Cfg.ofWord w).rsv = 0 ∧ (Cfg.ofWord w).offline = f.getLsbD 0 ∧ (Cfg.ofWord w).csPolarity = f.getLsbD 3 ∧
      (Cfg.ofWord w).clkPolarity = f.getLsbD 4 ∧ (Cfg.ofWord w).clkPhase = f.getLsbD 5 ∧
      (Cfg.ofWord w).lsbFirst = f.getLsbD 6 ∧ (Cfg.ofWord w).halfDuplex = f.getLsbD 7)

/-! ## Steps (spec/46_cycle_step.md) -/

/-- When a request is presented and there is no reset, a step is exec of the access its descriptor decodes to; around
it only the environment goes on: the script by what the cycle answered, the pin inputs and the cycle count by one. -/
def Obligations.StepRunsThePresentedAccess : Prop :=
  ∀ (s : State) (r : Request) (i : Instr),
    s.pinIn.rst = false → s.request = some r → decodeDescriptor r.descriptor = i →
      ∃ u, exec i s = .next u ∧
        step s = .next { u with host := hostNext s.host u.out, pins := s.pins.tail, tick := s.tick + 1 }

/-- A word placed by withFetchWord is the access the very next step runs. -/
def Obligations.PlacedWordRunsNext : Prop :=
  ∀ (s : State) (nbits w : Nat) (i : Instr), decodeTableWord nbits w = some i →
    ∃ u, exec i (s.withFetchWord nbits w) = .next u ∧ step (s.withFetchWord nbits w) = .next (advance u)

/-- No access and no cycle stops the machine: every access answers a next state in every state, every step does too,
and the parameters never change (R291, R320). -/
def Obligations.EveryCycleCompletes : Prop :=
  (∀ (i : Instr) (s : State), ∃ t, exec i s = .next t ∧ t.par = s.par) ∧
  (∀ s : State, ∃ t, step s = .next t ∧ t.par = s.par)

/-- The host's script (R111, R112; the script itself is log entry 6): a line is presented again until it is
acknowledged, a withdrawn request and an idle cycle last one cycle, and a `poll` reads `config` until an acknowledged
read has bits 1 and 2 clear. -/
def Obligations.ScriptFollowsTheNotation : Prop :=
  ∀ (s t : State) (op : HostOp) (rest : List HostOp), s.host = op :: rest → step s = .next t →
    (∀ r, op = .line r → s.request = some r ∧ t.host = if t.out.ack then rest else op :: rest) ∧
    (∀ r, op = .once r → s.request = some r ∧ t.host = rest) ∧
    (op = .idle → s.request = none ∧ t.host = rest) ∧
    (op = .poll → s.presented = some .rdConfig ∧
      t.host = if t.out.ack = true ∧ t.out.rdat.getLsbD 1 = false ∧ t.out.rdat.getLsbD 2 = false then rest
        else op :: rest)

/-! ## Accesses under BUS_ADAPTER = ATOMIC (spec/44_register_file.md sections 1 and 2) -/

/-- `RD_DATA` (R233): acknowledged, returns `data_read` as it is before this cycle's capture, and writes nothing: what
changes is what the cycle changes without an access. CoreMoved rests on decisions D3, D4 and D15 (log entries 11 and
12), and that `wb` stays on log entry 13. -/
def Obligations.ReadDataReturnsTheLastCapture : Prop :=
  ∀ s : State, s.par.busAdapter = .atomic →
    ∃ t, exec .rdData s = .next t ∧ t.out.ack = true ∧ t.out.rdat = s.dataRead ∧
      CoreMoved s t ∧ PendingMoved s t ∧ t.cfg = s.cfg ∧ t.xferRaw = s.xferRaw ∧ t.dataWrite = s.dataWrite ∧
      t.wb = s.wb ∧ RestKept s t ∧ PinsShown s t

/-- `RD_XFER` (R235): acknowledged, returns the word last written, reserved bits included (decision D11, log
entry 11), and writes nothing. CoreMoved rests on D3, D4 and D15 (log entries 11 and 12), and that `wb` stays on log
entry 13. -/
def Obligations.ReadXferReturnsTheStoredWord : Prop :=
  ∀ s : State, s.par.busAdapter = .atomic →
    ∃ t, exec .rdXfer s = .next t ∧ t.out.ack = true ∧ t.out.rdat = s.xferRaw ∧
      CoreMoved s t ∧ PendingMoved s t ∧ t.cfg = s.cfg ∧ t.xferRaw = s.xferRaw ∧ t.dataWrite = s.dataWrite ∧
      t.wb = s.wb ∧ RestKept s t ∧ PinsShown s t

/-- `RD_CONFIG` and `RD_CONFIG3` (R237, R239; decisions D10, D11, D22): acknowledged, return every stored field at its
position and the live `cs` and `pending` at bits 1 and 2, and write nothing. Index 3 and the reserved bits are log
entry 11, CoreMoved rests on D3, D4 and D15 (log entries 11 and 12), and that `wb` stays on log entry 13. -/
def Obligations.ReadConfigShowsTheLiveStatus : Prop :=
  ∀ (i : Instr) (s : State), (i = .rdConfig ∨ i = .rdConfig3) → s.par.busAdapter = .atomic →
    ∃ t, exec i s = .next t ∧ t.out.ack = true ∧
      t.out.rdat.getLsbD 0 = s.cfg.offline ∧
      (t.out.rdat.getLsbD 1 = true ↔ s.fsm ≠ .idle) ∧
      t.out.rdat.getLsbD 2 = s.pending ∧
      t.out.rdat.getLsbD 3 = s.cfg.csPolarity ∧ t.out.rdat.getLsbD 4 = s.cfg.clkPolarity ∧
      t.out.rdat.getLsbD 5 = s.cfg.clkPhase ∧ t.out.rdat.getLsbD 6 = s.cfg.lsbFirst ∧
      t.out.rdat.getLsbD 7 = s.cfg.halfDuplex ∧ t.out.rdat.extractLsb' 8 8 = s.cfg.rsv ∧
      t.out.rdat.extractLsb' 16 8 = s.cfg.divWrite ∧ t.out.rdat.extractLsb' 24 8 = s.cfg.divRead ∧
      CoreMoved s t ∧ PendingMoved s t ∧ t.cfg = s.cfg ∧ t.xferRaw = s.xferRaw ∧ t.dataWrite = s.dataWrite ∧
      t.wb = s.wb ∧ RestKept s t ∧ PinsShown s t

/-- `WR_DATA` (R234): accepted when no transfer is pending or the one in flight is done: the write buffer holds the
word and `pending` is set, whatever start does; otherwise it stalls and changes nothing of its own.
CoreMoved rests on decisions D3, D4 and D15 (log entries 11 and 12), and that `wb` stays on log entry 13. -/
def Obligations.WriteDataQueuesATransferOrStalls : Prop :=
  ∀ (w : Word) (s : State), s.par.busAdapter = .atomic →
    ((s.pending = false ∨ s.done = true) →
      ∃ t, exec (.wrData w) s = .next t ∧ t.out.ack = true ∧ t.dataWrite = w ∧ t.pending = true ∧
        CoreMoved s t ∧ t.cfg = s.cfg ∧ t.xferRaw = s.xferRaw ∧ t.wb = s.wb ∧ RestKept s t ∧ PinsShown s t) ∧
    (s.pending = true → s.done = false →
      ∃ t, exec (.wrData w) s = .next t ∧ t.out.ack = false ∧ t.dataWrite = s.dataWrite ∧ PendingMoved s t ∧
        CoreMoved s t ∧ t.cfg = s.cfg ∧ t.xferRaw = s.xferRaw ∧ t.wb = s.wb ∧ RestKept s t ∧ PinsShown s t)

/-- `WR_XFER` (R236; decisions D9, D11): acknowledged, stores all 32 bits for the next start and touches nothing else;
a start in the same cycle uses the old word (CoreMoved reads the state before). The reserved bits are log entry 11,
CoreMoved rests on D3, D4 and D15 (log entries 11 and 12), and that `wb` stays on log entry 13. -/
def Obligations.WriteXferStoresTheWord : Prop :=
  ∀ (w : Word) (s : State), s.par.busAdapter = .atomic →
    ∃ t, exec (.wrXfer w) s = .next t ∧ t.out.ack = true ∧ t.xferRaw = w ∧
      CoreMoved s t ∧ PendingMoved s t ∧ t.cfg = s.cfg ∧ t.dataWrite = s.dataWrite ∧
      t.wb = s.wb ∧ RestKept s t ∧ PinsShown s t

/-- `WR_CONFIG` and `WR_CONFIG3` (R238, R239; decisions D10, D11, D27): acknowledged, store every configuration field
from its bits of the word, ignore bits 1 and 2, and touch nothing else; everything in the cycle uses the old fields.
Index 3 and the reserved bits are log entry 11, CoreMoved rests on D3, D4 and D15 (log entries 11 and 12), and that
`wb` stays on log entry 13. -/
def Obligations.WriteConfigStoresEveryField : Prop :=
  ∀ (i : Instr) (w : Word) (s : State), (i = .wrConfig w ∨ i = .wrConfig3 w) → s.par.busAdapter = .atomic →
    ∃ t, exec i s = .next t ∧ t.out.ack = true ∧
      t.cfg = ⟨w.getLsbD 0, w.getLsbD 3, w.getLsbD 4, w.getLsbD 5, w.getLsbD 6, w.getLsbD 7,
        w.extractLsb' 8 8, w.extractLsb' 16 8, w.extractLsb' 24 8⟩ ∧
      CoreMoved s t ∧ PendingMoved s t ∧ t.xferRaw = s.xferRaw ∧ t.dataWrite = s.dataWrite ∧
      t.wb = s.wb ∧ RestKept s t ∧ PinsShown s t

/-- The acceptance rule (R232) for every access: acknowledged exactly when it is a read, or not of `data`, or no
transfer is pending, or the done pulse comes in this cycle. -/
def Obligations.AcceptanceRule : Prop :=
  ∀ (i : Instr) (s : State), s.par.busAdapter = .atomic →
    ∃ t, exec i s = .next t ∧
      (t.out.ack = true ↔ i.we = false ∨ i.idx ≠ 0 ∨ s.pending = false ∨ s.done = true)

/-- A read, and an access that is not acknowledged, leave the block exactly as a cycle without an access does; only
the outputs differ (R77, R231; decision D1). -/
def Obligations.ReadsAndStallsHaveNoEffect : Prop :=
  ∀ (i : Instr) (s : State), s.par.busAdapter = .atomic →
    ∃ t, exec i s = .next t ∧ ((i.we = false ∨ t.out.ack = false) → SameButOutputs (idleCycle s) t)

/-- Index 3 behaves exactly as index 2, under either adapter (R239; decision D10, from general knowledge, log
entry 11). -/
def Obligations.IndexThreeIsConfig : Prop :=
  (∀ s : State, exec .rdConfig3 s = exec .rdConfig s) ∧
  (∀ (w : Word) (s : State), exec (.wrConfig3 w) s = exec (.wrConfig w) s)

/-- A `config` write is read back in the next cycle with bits 1 and 2 replaced by the live `cs` and `pending`
(R104, R106, R237, R238). The reserved bits 15:8 are left out: no claim may rest on what they read back (R107). -/
def Obligations.ConfigReadsBackAsWritten : Prop :=
  ∀ (w : Word) (s : State), s.par.busAdapter = .atomic →
    ∃ t u, exec (.wrConfig w) s = .next t ∧ exec .rdConfig t = .next u ∧
      ∀ k, k < 8 ∨ (16 ≤ k ∧ k < 32) → u.out.rdat.getLsbD k =
        if k = 1 then t.cs else if k = 2 then t.pending else w.getLsbD k

/-- A `data` read never returns the write buffer: after an accepted `data` write (no transfer pending, or the done
cycle) the next read returns the capture, new only if that cycle was the done cycle (R34, R232, R233, R234, R242). -/
def Obligations.DataReadIsIndependentOfDataWrite : Prop :=
  ∀ (w : Word) (s : State), s.par.busAdapter = .atomic → (s.pending = false ∨ s.done = true) →
    ∃ t u, exec (.wrData w) s = .next t ∧ exec .rdData t = .next u ∧ t.dataWrite = w ∧
      u.out.rdat = if s.done then s.sr else s.dataRead

/-- A cycle with no request, under either adapter (R231, R247, R293, R325): only the core moves. Under ATOMIC it is not
acknowledged. Under WB_REGISTERED the outputs are the adapter's registers as they are, the next acknowledge is 0, the
status copies take `cs` and `pending`, and `fault_bus` is set exactly where the acknowledge was up. The adapter is
decisions D2 and D26, CoreMoved rests on D3, D4 and D15 (log entries 11 and 12), and that `wb` stays under ATOMIC on log
entry 13. -/
def Obligations.CycleWithoutAccess : Prop :=
  ∀ s : State, s.pinIn.rst = false → s.request = none →
    ∃ t, cycle s = .next t ∧ CoreMoved s t ∧ PendingMoved s t ∧ t.cfg = s.cfg ∧ t.xferRaw = s.xferRaw ∧
      t.dataWrite = s.dataWrite ∧ PinsShown s t ∧
      (s.par.busAdapter = .atomic → t.out.ack = false ∧ t.wb = s.wb ∧ RestKept s t) ∧
      (s.par.busAdapter = .wbRegistered →
        t.out.ack = s.wb.ack ∧ t.out.rdat = s.wb.datR ∧ t.wb.ack = false ∧
        (t.wb.activeQ = true ↔ s.fsm ≠ .idle) ∧ t.wb.pendingQ = s.pending ∧
        (t.faultBus = true ↔ s.faultBus = true ∨ s.wb.ack = true) ∧
        t.par = s.par ∧ t.host = s.host ∧ t.pins = s.pins ∧ t.tick = s.tick)

/-! ## The optional bus adapter (spec/44_register_file.md R247; from general knowledge, decisions D2, D26) -/

/-- The adapter's registers in the cycle of any access: the answer comes from them, the next acknowledge is raised for
a ready request not yet acknowledged, and a read's word is registered with the one-cycle-old status (what the register
takes in a write's request cycle is no claim's business, I5, log entry 14). The adapter is log entry 12, and CoreMoved
rests on D3, D4 and D15 (log entries 11 and 12). -/
def Obligations.AdapterRegistersTheAnswer : Prop :=
  ∀ (i : Instr) (s : State), s.par.busAdapter = .wbRegistered →
    ∃ t, exec i s = .next t ∧ t.out.ack = s.wb.ack ∧ t.out.rdat = s.wb.datR ∧
      (t.wb.ack = true ↔
        s.wb.ack = false ∧ (i.we = false ∨ i.idx ≠ 0 ∨ s.pending = false ∨ s.done = true)) ∧
      (t.wb.activeQ = true ↔ s.fsm ≠ .idle) ∧ t.wb.pendingQ = s.pending ∧
      (i.we = false → t.wb.datR = if i.idx = 0 then s.dataRead else if i.idx = 1 then s.xferRaw
        else configWord s.cfg s.wb.activeQ s.wb.pendingQ) ∧
      CoreMoved s t ∧ RestKept s t ∧ PinsShown s t

/-- Under the adapter a write commits in its acknowledge cycle and in no other; reads commit nothing (R247, log
entry 12). -/
def Obligations.AdapterCommitsInTheAcknowledgeCycle : Prop :=
  ∀ (i : Instr) (s : State), s.par.busAdapter = .wbRegistered →
    ∃ t, exec i s = .next t ∧
      ((s.wb.ack = false ∨ i.we = false) →
        PendingMoved s t ∧ t.dataWrite = s.dataWrite ∧ t.xferRaw = s.xferRaw ∧ t.cfg = s.cfg) ∧
      (s.wb.ack = true →
        (∀ w, i = .wrData w → t.dataWrite = w ∧ t.pending = true ∧ t.xferRaw = s.xferRaw ∧ t.cfg = s.cfg) ∧
        (∀ w, i = .wrXfer w → t.xferRaw = w ∧ PendingMoved s t ∧ t.dataWrite = s.dataWrite ∧ t.cfg = s.cfg) ∧
        (∀ w, (i = .wrConfig w ∨ i = .wrConfig3 w) → t.cfg = Cfg.ofWord w ∧ PendingMoved s t ∧
          t.dataWrite = s.dataWrite ∧ t.xferRaw = s.xferRaw))

/-- A request dropped while `wb.ack = 1` sets `fault_bus` and performs no write; under ATOMIC `fault_bus` stays as it
is; setting either fault bit leaves the other to its own rule (R325, R326; decision D26, log entry 12). -/
def Obligations.DroppedRequestSetsTheBusFault : Prop :=
  ∀ s t : State, s.pinIn.rst = false → step s = .next t →
    (t.faultBus = true ↔
      s.faultBus = true ∨ (s.par.busAdapter = .wbRegistered ∧ s.wb.ack = true ∧ s.request = none)) ∧
    (t.faultLen = true ↔
      s.faultLen = true ∨ (s.start = true ∧ s.xferWriteLength.toNat + s.xferReadLength.toNat > 32)) ∧
    (s.request = none → t.dataWrite = s.dataWrite ∧ t.xferRaw = s.xferRaw ∧ t.cfg = s.cfg ∧ PendingMoved s t)

/-! ## The components, in every step without reset -/

/-- The ClockGenerator (R131, R133, R134, R135): `edge` is the countdown at 0 with no extension pending; an enabled
cycle counts down, or clears the extension, or at an edge reloads, latches the new extension and toggles. -/
def Obligations.ClockGeneratorMoves : Prop :=
  ∀ s t : State, s.pinIn.rst = false → step s = .next t →
    (s.edge = true ↔ s.cg.cnt = 0 ∧ s.cg.bias = false) ∧
    (s.cgCe = true → s.cg.cnt ≠ 0 → t.cg = ⟨s.cg.cnt - 1, s.cg.bias, s.cg.clk⟩) ∧
    (s.cgCe = true → s.cg.cnt = 0 → s.cg.bias = true → t.cg = ⟨0, false, s.cg.clk⟩) ∧
    (s.cgCe = true → s.edge = true →
      t.cg.cnt.toNat = s.load.toNat / 2 ∧
      t.cg.bias = (s.load.getLsbD 0 && (s.cg.clk != s.biasIn)) ∧ t.cg.clk = !s.cg.clk)

/-- The enable gate (R132; decision D3, from general knowledge, log entry 12) and no toggle while idle (R140): the
generator is frozen exactly in IDLE at an edge without start, and in IDLE without start the clock line does not
change. -/
def Obligations.ClockIsFrozenWhileIdle : Prop :=
  ∀ s t : State, s.pinIn.rst = false → step s = .next t →
    (s.cgCe = false ↔ s.fsm = .idle ∧ s.start = false ∧ s.edge = true) ∧
    (s.cgCe = false → t.cg = s.cg) ∧
    (s.fsm = .idle → s.start = false → t.cg.clk = s.cg.clk)

/-- The load selection (R199) and the bias input (R136; decision D4, log entry 12): the write divisor while write bits
remain or no read bit does, else the read divisor; both are live configuration. -/
def Obligations.DivisorFollowsTheCounters : Prop :=
  ∀ s t : State, s.pinIn.rst = false → step s = .next t → s.edge = true → s.cgCe = true →
    ((s.nWrite ≠ 0 ∨ s.nRead = 0) → t.cg.cnt.toNat = s.cfg.divWrite.toNat / 2 ∧
      t.cg.bias = (s.cfg.divWrite.getLsbD 0 && (s.cg.clk != s.cfg.clkPhase))) ∧
    (s.nWrite = 0 → s.nRead ≠ 0 → t.cg.cnt.toNat = s.cfg.divRead.toNat / 2 ∧
      t.cg.bias = (s.cfg.divRead.getLsbD 0 && (s.cg.clk != s.cfg.clkPhase)))

/-- The sequencer's transitions (R190 to R194). -/
def Obligations.SequencerFollowsItsTable : Prop :=
  ∀ s t : State, s.pinIn.rst = false → step s = .next t →
    (s.edge = false → t.fsm = s.fsm) ∧
    (s.edge = true →
      (s.fsm = .idle → t.fsm = if s.start then (if s.cfg.clkPhase then .wait else .setup) else .idle) ∧
      (s.fsm = .setup → t.fsm = .hold) ∧
      (s.fsm = .hold → t.fsm =
        if s.bdone = true ∧ s.start = false then (if s.cfg.clkPhase then .idle else .wait) else .setup) ∧
      (s.fsm = .wait → t.fsm = if s.bdone then .idle else .setup))

/-- The echo `write0` (R198, R200; decision D7) and the output enable (R201): `write0` takes "bits to write remain" at
a shift edge and keeps its value in every other cycle, and `oe` holds while write bits remain or `write0` is set. -/
def Obligations.WriteEchoChangesAtShiftEdgesOnly : Prop :=
  ∀ s t : State, s.pinIn.rst = false → step s = .next t →
    (s.edge = true → s.fsm = .hold → s.bdone = false → (t.write0 = true ↔ s.nWrite ≠ 0)) ∧
    ((s.edge = false ∨ s.fsm ≠ .hold ∨ s.bdone = true) → t.write0 = s.write0) ∧
    (t.oe = true ↔ t.write0 = true ∨ t.nWrite ≠ 0)

/-- Sampling (R154, with the input of R273): at a SETUP edge the input bit is written into bit 0 (MSB first) or bit 31
(LSB first), and every other bit keeps its value. -/
def Obligations.SampleFillsTheVacatedPosition : Prop :=
  ∀ s t : State, s.pinIn.rst = false → step s = .next t → s.edge = true → s.fsm = .setup →
    (s.cfg.lsbFirst = false → t.sr.getLsbD 0 = sampledInput s ∧
      ∀ k, 0 < k → k < 32 → t.sr.getLsbD k = s.sr.getLsbD k) ∧
    (s.cfg.lsbFirst = true → t.sr.getLsbD 31 = sampledInput s ∧
      ∀ k, k < 31 → t.sr.getLsbD k = s.sr.getLsbD k) ∧
    sampledInput s = (if s.cfg.halfDuplex then s.pinIn.mosiIn
      else if s.par.hasMiso then s.pinIn.miso else s.pinIn.mosiIn)

/-- Shifting (R153; that the vacated position keeps its bit is decision D15, from general knowledge, log entry
11): at a HOLD edge
with bits left the register moves by one place toward the end `o` presents; without an edge and without start it does
not change (R152). -/
def Obligations.ShiftMovesTowardTheOutput : Prop :=
  ∀ s t : State, s.pinIn.rst = false → step s = .next t →
    (s.edge = true → s.fsm = .hold → s.bdone = false →
      (s.cfg.lsbFirst = false → t.sr.getLsbD 0 = s.sr.getLsbD 0 ∧
        ∀ k, k < 31 → t.sr.getLsbD (k + 1) = s.sr.getLsbD k) ∧
      (s.cfg.lsbFirst = true → t.sr.getLsbD 31 = s.sr.getLsbD 31 ∧
        ∀ k, k < 31 → t.sr.getLsbD k = s.sr.getLsbD (k + 1))) ∧
    (s.edge = false → s.start = false → t.sr = s.sr)

/-- The bit counter (R173): in an enabled cycle the write counter counts down while it is not 0, otherwise the read
counter does, and neither wraps; the enabled cycles are those of R172 under either value of BITCOUNT_ENABLE. -/
def Obligations.WriteBitsAreCountedBeforeReadBits : Prop :=
  ∀ s t : State, s.pinIn.rst = false → step s = .next t → countEdge s →
    (s.nWrite ≠ 0 → t.nWrite.toNat + 1 = s.nWrite.toNat ∧ t.nRead = s.nRead) ∧
    (s.nWrite = 0 → s.nRead ≠ 0 → t.nWrite = 0 ∧ t.nRead.toNat + 1 = s.nRead.toNat) ∧
    (s.nWrite = 0 → s.nRead = 0 → t.nWrite = 0 ∧ t.nRead = 0)

/-- Start (R240, R241): a pending transfer starts in IDLE (under START_REQUIRES_EDGE = true only at an edge), or with
the done pulse; the start loads the counters and the chip-select mask from the buffered `xfer` word, the shift register
from the write buffer, clears `pending` unless a `data` write is acknowledged in the cycle, and sets `fault_len` if the
lengths exceed 32. -/
def Obligations.StartHandsThePendingTransferOver : Prop :=
  ∀ s t : State, s.pinIn.rst = false → step s = .next t →
    (s.start = true ↔ s.pending = true ∧
      ((s.fsm = .idle ∧ (s.par.startRequiresEdge = true → s.edge = true)) ∨ s.done = true)) ∧
    (s.start = true →
      t.csSel = xferCs s.par.xferLayout s.xferRaw ∧
      t.nWrite = xferWriteLength s.par.xferLayout s.xferRaw ∧
      t.nRead = xferReadLength s.par.xferLayout s.xferRaw ∧
      t.sr = s.dataWrite ∧
      ((¬ ∃ w, s.presented = some (.wrData w) ∧ t.out.ack = true) → t.pending = false) ∧
      (s.xferWriteLength.toNat + s.xferReadLength.toNat > 32 → t.faultLen = true))

/-- The literal variant START_REQUIRES_EDGE = false (R240): start does not wait for an edge, and in IDLE without an
edge the start effects happen while the sequencer stays IDLE, so the transfer is lost (R368): `pending` clears whatever
the host presents, unless a `data` write is acknowledged in the cycle. -/
def Obligations.LiteralStartLosesTheTransfer : Prop :=
  ∀ s t : State, s.par.startRequiresEdge = false → s.pinIn.rst = false → step s = .next t →
    (s.start = true ↔ s.pending = true ∧ (s.fsm = .idle ∨ s.done = true)) ∧
    (s.fsm = .idle → s.edge = false → s.pending = true →
      t.fsm = .idle ∧ t.sr = s.dataWrite ∧ t.nWrite = s.xferWriteLength ∧ t.nRead = s.xferReadLength ∧
      ((¬ ∃ w, s.presented = some (.wrData w) ∧ t.out.ack = true) → t.pending = false))

/-- Done (R202, R242): the pulse is an edge in HOLD with no bit left; in its cycle the shift register's value before
any start load is captured, and in no other cycle does `data_read` change; the write buffer changes only where a `data`
write is acknowledged. -/
def Obligations.DoneCapturesTheShiftRegister : Prop :=
  ∀ s t : State, s.pinIn.rst = false → step s = .next t →
    (s.done = true ↔ s.edge = true ∧ s.nWrite = 0 ∧ s.nRead = 0 ∧ s.fsm = .hold) ∧
    t.dataRead = (if s.done then s.sr else s.dataRead) ∧
    (s.start = true → t.sr = s.dataWrite) ∧
    ((¬ ∃ w, s.presented = some (.wrData w) ∧ t.out.ack = true) → t.dataWrite = s.dataWrite)

/-- Chaining in one cycle (R204, R243, R294): at the done edge with a transfer pending, start hands the old write
buffer over, `cs` stays asserted, the finished transfer is captured, and a `data` write accepted in the same cycle
fills the buffer again and leaves `pending` set. -/
def Obligations.ChainedDataWriteKeepsPending : Prop :=
  ∀ (w : Word) (s : State), s.par.busAdapter = .atomic → s.done = true → s.pending = true →
    ∃ t, exec (.wrData w) s = .next t ∧ t.out.ack = true ∧ s.start = true ∧ t.sr = s.dataWrite ∧
      t.dataRead = s.sr ∧ t.dataWrite = w ∧ t.pending = true ∧ t.fsm = .setup ∧ s.cs = true ∧ t.cs = true

/-- The pins of every cycle, reset cycles included, are the values the state before it gives (R271, R272, R274,
R350; decision D25 for the `offline` term of `mosi`). -/
def Obligations.PinsFollowTheState : Prop :=
  ∀ s t : State, step s = .next t → PinsShown s t

/-! ## Reset (spec/70_reset_and_hazards.md) -/

/-- A cycle with `rst = 1` (R350; decisions D12, D13): the next state is the reset state for the machine's parameters,
whatever the state and the other inputs are, with no acknowledge. Two clauses are the model's choice: that the cycle
clears the model fault bits is log entry 7, and that there is no acknowledge under WB_REGISTERED even where `wb.ack` is
up is log entry 15. -/
def Obligations.ResetCycleRestoresTheResetState : Prop :=
  ∀ s : State, s.pinIn.rst = true →
    ∃ t, step s = .next t ∧ t.out.ack = false ∧ PinsShown s t ∧
      t.fsm = .idle ∧ t.cg = ⟨0, false, true⟩ ∧ t.cfg.offline = true ∧ t.pending = false ∧
      { t with host := [], pins := [], out := Outputs.reset, tick := 0 } = State.resetWith s.par

/-- The reset state (R46) and what the host reads from it (R351): 0 from `data` and `xfer`, 1 from `config`, and the
ClockGenerator at an edge and frozen. -/
def Obligations.ResetStateReadsAsTheSpecSays : Prop :=
  State.reset.edge = true ∧ State.reset.cgCe = false ∧ State.reset.cg.clk = true ∧
  State.reset.cfg.offline = true ∧ State.reset.fsm = .idle ∧ State.reset.pending = false ∧
  (∃ t, exec .rdData State.reset = .next t ∧ t.out.rdat = 0 ∧ t.out.clk.drive = false ∧
    t.out.mosi.drive = false ∧ ∀ p ∈ t.out.csLines, p.drive = false) ∧
  (∃ t, exec .rdXfer State.reset = .next t ∧ t.out.rdat = 0) ∧
  (∃ t, exec .rdConfig State.reset = .next t ∧ t.out.rdat = 1)

/-! ## Invariants -/

/-- The invariant holds in the reset state of every legal choice of the parameters, and the clock parity in that of
every choice: the reset value of `cg.clk` is 1 (R296). -/
def Obligations.InvHoldsAtReset : Prop :=
  Inv State.reset ∧ (∀ p : Params, p.wellFormed = true → Inv (State.resetWith p)) ∧
    ∀ p : Params, ClockParity (State.resetWith p)

/-- Every step keeps the invariant (R295 items 1 and 2, R325), reset cycles and every access included. -/
def Obligations.EveryStepKeepsInv : Prop :=
  ∀ s t : State, Inv s → step s = .next t → Inv t

/-- Every step that does not leave a changed `clk_phase` in an active state keeps the clock parity: in IDLE `cg.clk`
is 1 (R296). The premise is the value `clk_phase` has while `cs = 1` in the next state: a write in the start cycle
itself counts as a change during the transfer (log entry 8). -/
def Obligations.EveryStepKeepsTheClockParity : Prop :=
  ∀ s t : State, ClockParity s → step s = .next t →
    (t.cfg.clkPhase = s.cfg.clkPhase ∨ t.fsm = .idle) → ClockParity t

/-- No coincident edges (R278): with the clock parity, and `clk_polarity` not changed by the cycle, the level of the
`clk` pin does not change in a step in which `cs` does. -/
def Obligations.ClockPinIsQuietWhenChipSelectChanges : Prop :=
  ∀ s t : State, ClockParity s → s.pinIn.rst = false → step s = .next t →
    t.cfg.clkPolarity = s.cfg.clkPolarity → t.cs ≠ s.cs → t.clkPin.level = s.clkPin.level

/-- A queued transfer is not lost (R245, R362), under START_REQUIRES_EDGE = true: a pending transfer stays pending, or
the sequencer is active in the next cycle; a start leads to an active sequencer; the sequencer returns to IDLE only with
no bit left and no start; and an accepted `data` write leaves a transfer pending, under either adapter. -/
def Obligations.PendingTransferIsNeverLost : Prop :=
  ∀ s t : State, s.par.startRequiresEdge = true → s.pinIn.rst = false → step s = .next t →
    (s.pending = true → t.pending = true ∨ t.cs = true) ∧
    (s.start = true → t.cs = true) ∧
    (s.cs = true → t.cs = false → s.start = false ∧ s.bdone = true) ∧
    (∀ w, s.presented = some (.wrData w) → t.out.ack = true → t.pending = true ∧ t.dataWrite = w)

/-- Half-duplex release (R201, R279): the edge that ends the HOLD of the last write bit, with read bits left, leaves
`mosi` floating in half-duplex. -/
def Obligations.MosiIsReleasedForTheReadPhase : Prop :=
  ∀ s t : State, s.pinIn.rst = false → step s = .next t → s.edge = true → s.fsm = .hold →
    s.nWrite = 0 → s.nRead ≠ 0 → t.fsm = .setup ∧ (t.cfg.halfDuplex = true → t.mosiPin.drive = false)

/-- `offline` gates the pins only (R276, R323): two states that differ in `offline` alone answer every access alike,
but for bit 0 of a `config` read, and their next states differ in `offline` and the outputs alone; after a `config`
write they do not differ but in the outputs. The answers outside a `config` read are equal whole. This is one access
under ATOMIC; OfflineIsInvisibleToTheRun is every step under either adapter. -/
def Obligations.OfflineGatesOnlyThePins : Prop :=
  ∀ (i : Instr) (s : State) (b : Bool), s.par.busAdapter = .atomic →
    ∃ t u, exec i s = .next t ∧ exec i (withOffline b s) = .next u ∧
      u.out.ack = t.out.ack ∧ (∀ k, 0 < k → u.out.rdat.getLsbD k = t.out.rdat.getLsbD k) ∧
      ((i.we = true ∨ i.idx.toNat < 2) → u.out.rdat = t.out.rdat) ∧
      ((i.we = false ∨ i.idx.toNat < 2) → SameButOutputs (withOffline b t) u) ∧
      (i.we = true → 2 ≤ i.idx.toNat → SameButOutputs t u)

/-! ## The ClockGenerator over many cycles (spec/40_clock_generator.md section 3) -/

/-- Half-period length (R137): after an enabled edge with load L that latches b, the next edge comes (L >> 1) + 1 + b
cycles later and no earlier, whatever the following loads and phases are. -/
def Obligations.HalfPeriodLength : Prop :=
  ∀ (g : ClockGen) (load : Div) (phase : Bool) (load' : Div) (phase' : Bool), g.edge = true →
    let g1 := g.next true load phase
    (∀ k, k < load.toNat / 2 + g1.bias.toNat → (clockAfter load' phase' g1 k).edge = false) ∧
    (clockAfter load' phase' g1 (load.toNat / 2 + g1.bias.toNat)).edge = true

/-- SPI clock period (R139): with a constant load L and phase, L + 2 cycles after an edge there is an edge again, the
clock line is as it was, and exactly one cycle in between is an edge. -/
def Obligations.ClockPeriodIsLoadPlusTwo : Prop :=
  ∀ (g : ClockGen) (load : Div) (phase : Bool), g.edge = true →
    (clockAfter load phase g (load.toNat + 2)).edge = true ∧
    (clockAfter load phase g (load.toNat + 2)).clk = g.clk ∧
    ∃ m, 0 < m ∧ m < load.toNat + 2 ∧
      ∀ k, 0 < k → k < load.toNat + 2 → ((clockAfter load phase g k).edge = true ↔ k = m)

/-! ## The register of one transfer (spec/41_shift_register.md section 3) -/

/-- The value at the done capture (R159): for N sampled bits, 1 ≤ N ≤ 32, MSB first the bits are right-aligned below
the shifted write data, LSB first left-aligned above it. -/
def Obligations.CapturedValueOfATransfer : Prop :=
  ∀ (d : Word) (ins : List Bool), 1 ≤ ins.length → ins.length ≤ 32 → ∀ k, k < 32 →
    (afterSamples false d ins).getLsbD k =
      (if k < ins.length then ins[ins.length - 1 - k]! else d.getLsbD (k + 1 - ins.length)) ∧
    (afterSamples true d ins).getLsbD k =
      (if 32 - ins.length ≤ k then ins[k - (32 - ins.length)]! else d.getLsbD (k + ins.length - 1))

/-- The bits on the wire (R157): while the k-th sample is taken the output is bit 32 − k of the write data (MSB first)
or bit k − 1 (LSB first) for k ≤ 31, and for k = 32 the first sampled bit. `ins` holds the k − 1 bits sampled before;
the shift that follows the last of them has happened. -/
def Obligations.WireBitsOfATransfer : Prop :=
  ∀ (d : Word) (ins : List Bool),
    (serialOut false d = d.getLsbD 31 ∧ serialOut true d = d.getLsbD 0) ∧
    (1 ≤ ins.length → ins.length ≤ 30 →
      serialOut false (srShift false (afterSamples false d ins)) = d.getLsbD (31 - ins.length) ∧
      serialOut true (srShift true (afterSamples true d ins)) = d.getLsbD ins.length) ∧
    (ins.length = 31 →
      serialOut false (srShift false (afterSamples false d ins)) = ins[0]! ∧
      serialOut true (srShift true (afterSamples true d ins)) = ins[0]!)

/-- The shift periodicity law (R160): in loopback the value after the samples is periodic in their number with period
width − 1 = 31. -/
def Obligations.LoopbackIsPeriodic : Prop :=
  ∀ (lsb : Bool) (d : Word) (n : Nat), afterLoopback lsb d (n + 31) = afterLoopback lsb d n

/-! ## Runs -/

/-- A pending transfer starts (R295.6): in IDLE with a transfer pending and no reset, start comes exactly after
`cg.cnt + cg.bias` further cycles, whatever the host and the pins do. -/
def Obligations.PendingTransferStartsInTime : Prop :=
  ∀ s : State, s.par.startRequiresEdge = true → s.fsm = .idle → s.pending = true →
    s.resetFree (s.cg.cnt.toNat + s.cg.bias.toNat) →
    (∀ k, k < s.cg.cnt.toNat + s.cg.bias.toNat → (s.after k).start = false) ∧
    (s.after (s.cg.cnt.toNat + s.cg.bias.toNat)).start = true

/-- No hang (R327): from every state of the invariant, with N bits left and no reset, the done pulse or IDLE comes
within 2·(N + 2) half-periods of at most 129 cycles, whatever the host and the pins do, under every choice of the
parameters. R327 says it of over-long transfers too (63 + 63 bits), so there is no premise on `fault_len`. -/
def Obligations.EveryTransferEnds : Prop :=
  ∀ s : State, Inv s → s.resetFree (2 * (s.nWrite.toNat + s.nRead.toNat + 2) * 129) →
    ∃ k, k ≤ 2 * (s.nWrite.toNat + s.nRead.toNat + 2) * 129 ∧
      ((s.after k).fsm = .idle ∨ (s.after k).done = true)

/-- Completion by polling (R362): under START_REQUIRES_EDGE = true, once a state with a transfer pending is followed by
one in which `active` and `pending` are both 0, the transfer has started in between, and `data_read` is what the last
done pulse in between captured. No fault bit is set at the end (R44). -/
def Obligations.PolledTransferHasCompleted : Prop :=
  ∀ (s : State) (k : Nat), s.par.startRequiresEdge = true → s.pending = true → s.resetFree k →
    (s.after k).cs = false → (s.after k).pending = false → (s.after k).noFault →
    (∃ j, j < k ∧ (s.after j).start = true) ∧
    ∀ m, m < k → (s.after m).done = true → (∀ l, m < l → l < k → (s.after l).done = false) →
      (s.after k).dataRead = (s.after m).sr

/-- One whole transfer on the machine (R156, R159, R203): under BITCOUNT_ENABLE = SAMPLE, from a start edge with
N = write_length + read_length ≥ 1, with `lsb_first` constant and no reset up to the first done pulse after it, the run
takes exactly N samples, and at the done pulse the shift register holds the write data after them. No fault bit is set
at the end (R44), so N is at most 32. -/
def Obligations.TransferShiftsOutAndSamplesEveryBit : Prop :=
  ∀ (s : State) (m : Nat), s.par.bitcountEnable = .sample → s.start = true → s.edge = true →
    1 ≤ s.xferWriteLength.toNat + s.xferReadLength.toNat →
    0 < m → (s.after m).done = true → (∀ j, 0 < j → j < m → (s.after j).done = false) →
    s.resetFree m → (s.after m).noFault →
    (∀ j, 0 < j → j ≤ m → (s.after j).cfg.lsbFirst = s.cfg.lsbFirst) →
    ((stepNext s).samples (m - 1)).length = s.xferWriteLength.toNat + s.xferReadLength.toNat ∧
    (s.after m).sr = afterSamples s.cfg.lsbFirst s.dataWrite ((stepNext s).samples (m - 1))

/-- Loopback on the machine (R160): a transfer as in TransferShiftsOutAndSamplesEveryBit, in which every sampled input
equals the output bit, holds at its done pulse the value of the periodicity law for its N samples. -/
def Obligations.LoopbackTransferObeysThePeriodicityLaw : Prop :=
  ∀ (s : State) (m : Nat), s.par.bitcountEnable = .sample → s.start = true → s.edge = true →
    1 ≤ s.xferWriteLength.toNat + s.xferReadLength.toNat →
    0 < m → (s.after m).done = true → (∀ j, 0 < j → j < m → (s.after j).done = false) →
    s.resetFree m → (s.after m).noFault →
    (∀ j, 0 < j → j ≤ m → (s.after j).cfg.lsbFirst = s.cfg.lsbFirst) →
    (∀ j, 0 < j → j < m → (s.after j).edge = true → (s.after j).fsm = .setup →
      sampledInput (s.after j) = (s.after j).o) →
    (s.after m).sr =
      afterLoopback s.cfg.lsbFirst s.dataWrite (s.xferWriteLength.toNat + s.xferReadLength.toNat - 1)

/-- `offline` gates the pins only (R276, R323), in every step: from two states that differ in `offline`, and in what
shows it, the next states differ in no more, whatever the access (or none, or a reset), the adapter and the pin inputs
are; so the two runs start, finish and capture their transfers in the same cycles. -/
def Obligations.OfflineIsInvisibleToTheRun : Prop :=
  ∀ s u t v : State, DifferInOffline s u → step s = .next t → step u = .next v →
    DifferInOffline t v ∧ u.start = s.start ∧ u.done = s.done
end

