-- ==== Sys2Proof/Laws/State.lean ====
section
/-! SUPPORT. One lemma per field per update of State: no later proof unfolds a record update. -/

namespace Sys2Proof.Machine

/-! ### `setOut` -/

@[simp] theorem setOut_par (o : Outputs) (n : State) : (setOut o n).par = n.par := rfl
@[simp] theorem setOut_cfg (o : Outputs) (n : State) : (setOut o n).cfg = n.cfg := rfl
@[simp] theorem setOut_xferRaw (o : Outputs) (n : State) : (setOut o n).xferRaw = n.xferRaw := rfl
@[simp] theorem setOut_dataWrite (o : Outputs) (n : State) : (setOut o n).dataWrite = n.dataWrite := rfl
@[simp] theorem setOut_dataRead (o : Outputs) (n : State) : (setOut o n).dataRead = n.dataRead := rfl
@[simp] theorem setOut_pending (o : Outputs) (n : State) : (setOut o n).pending = n.pending := rfl
@[simp] theorem setOut_csSel (o : Outputs) (n : State) : (setOut o n).csSel = n.csSel := rfl
@[simp] theorem setOut_cg (o : Outputs) (n : State) : (setOut o n).cg = n.cg := rfl
@[simp] theorem setOut_sr (o : Outputs) (n : State) : (setOut o n).sr = n.sr := rfl
@[simp] theorem setOut_nWrite (o : Outputs) (n : State) : (setOut o n).nWrite = n.nWrite := rfl
@[simp] theorem setOut_nRead (o : Outputs) (n : State) : (setOut o n).nRead = n.nRead := rfl
@[simp] theorem setOut_fsm (o : Outputs) (n : State) : (setOut o n).fsm = n.fsm := rfl
@[simp] theorem setOut_write0 (o : Outputs) (n : State) : (setOut o n).write0 = n.write0 := rfl
@[simp] theorem setOut_faultLen (o : Outputs) (n : State) : (setOut o n).faultLen = n.faultLen := rfl
@[simp] theorem setOut_faultBus (o : Outputs) (n : State) : (setOut o n).faultBus = n.faultBus := rfl
@[simp] theorem setOut_wb (o : Outputs) (n : State) : (setOut o n).wb = n.wb := rfl
@[simp] theorem setOut_host (o : Outputs) (n : State) : (setOut o n).host = n.host := rfl
@[simp] theorem setOut_pins (o : Outputs) (n : State) : (setOut o n).pins = n.pins := rfl
@[simp] theorem setOut_out (o : Outputs) (n : State) : (setOut o n).out = o := rfl
@[simp] theorem setOut_tick (o : Outputs) (n : State) : (setOut o n).tick = n.tick := rfl

/-! ### `setWb` -/

@[simp] theorem setWb_par (w : Wb) (n : State) : (setWb w n).par = n.par := rfl
@[simp] theorem setWb_cfg (w : Wb) (n : State) : (setWb w n).cfg = n.cfg := rfl
@[simp] theorem setWb_xferRaw (w : Wb) (n : State) : (setWb w n).xferRaw = n.xferRaw := rfl
@[simp] theorem setWb_dataWrite (w : Wb) (n : State) : (setWb w n).dataWrite = n.dataWrite := rfl
@[simp] theorem setWb_dataRead (w : Wb) (n : State) : (setWb w n).dataRead = n.dataRead := rfl
@[simp] theorem setWb_pending (w : Wb) (n : State) : (setWb w n).pending = n.pending := rfl
@[simp] theorem setWb_csSel (w : Wb) (n : State) : (setWb w n).csSel = n.csSel := rfl
@[simp] theorem setWb_cg (w : Wb) (n : State) : (setWb w n).cg = n.cg := rfl
@[simp] theorem setWb_sr (w : Wb) (n : State) : (setWb w n).sr = n.sr := rfl
@[simp] theorem setWb_nWrite (w : Wb) (n : State) : (setWb w n).nWrite = n.nWrite := rfl
@[simp] theorem setWb_nRead (w : Wb) (n : State) : (setWb w n).nRead = n.nRead := rfl
@[simp] theorem setWb_fsm (w : Wb) (n : State) : (setWb w n).fsm = n.fsm := rfl
@[simp] theorem setWb_write0 (w : Wb) (n : State) : (setWb w n).write0 = n.write0 := rfl
@[simp] theorem setWb_faultLen (w : Wb) (n : State) : (setWb w n).faultLen = n.faultLen := rfl
@[simp] theorem setWb_faultBus (w : Wb) (n : State) : (setWb w n).faultBus = n.faultBus := rfl
@[simp] theorem setWb_wb (w : Wb) (n : State) : (setWb w n).wb = w := rfl
@[simp] theorem setWb_host (w : Wb) (n : State) : (setWb w n).host = n.host := rfl
@[simp] theorem setWb_pins (w : Wb) (n : State) : (setWb w n).pins = n.pins := rfl
@[simp] theorem setWb_out (w : Wb) (n : State) : (setWb w n).out = n.out := rfl
@[simp] theorem setWb_tick (w : Wb) (n : State) : (setWb w n).tick = n.tick := rfl

/-! ### `raiseLen` -/

@[simp] theorem raiseLen_par  (n : State) : (raise .len n).par = n.par := rfl
@[simp] theorem raiseLen_cfg  (n : State) : (raise .len n).cfg = n.cfg := rfl
@[simp] theorem raiseLen_xferRaw  (n : State) : (raise .len n).xferRaw = n.xferRaw := rfl
@[simp] theorem raiseLen_dataWrite  (n : State) : (raise .len n).dataWrite = n.dataWrite := rfl
@[simp] theorem raiseLen_dataRead  (n : State) : (raise .len n).dataRead = n.dataRead := rfl
@[simp] theorem raiseLen_pending  (n : State) : (raise .len n).pending = n.pending := rfl
@[simp] theorem raiseLen_csSel  (n : State) : (raise .len n).csSel = n.csSel := rfl
@[simp] theorem raiseLen_cg  (n : State) : (raise .len n).cg = n.cg := rfl
@[simp] theorem raiseLen_sr  (n : State) : (raise .len n).sr = n.sr := rfl
@[simp] theorem raiseLen_nWrite  (n : State) : (raise .len n).nWrite = n.nWrite := rfl
@[simp] theorem raiseLen_nRead  (n : State) : (raise .len n).nRead = n.nRead := rfl
@[simp] theorem raiseLen_fsm  (n : State) : (raise .len n).fsm = n.fsm := rfl
@[simp] theorem raiseLen_write0  (n : State) : (raise .len n).write0 = n.write0 := rfl
@[simp] theorem raiseLen_faultLen  (n : State) : (raise .len n).faultLen = true := rfl
@[simp] theorem raiseLen_faultBus  (n : State) : (raise .len n).faultBus = n.faultBus := rfl
@[simp] theorem raiseLen_wb  (n : State) : (raise .len n).wb = n.wb := rfl
@[simp] theorem raiseLen_host  (n : State) : (raise .len n).host = n.host := rfl
@[simp] theorem raiseLen_pins  (n : State) : (raise .len n).pins = n.pins := rfl
@[simp] theorem raiseLen_out  (n : State) : (raise .len n).out = n.out := rfl
@[simp] theorem raiseLen_tick  (n : State) : (raise .len n).tick = n.tick := rfl

/-! ### `raiseBus` -/

@[simp] theorem raiseBus_par  (n : State) : (raise .bus n).par = n.par := rfl
@[simp] theorem raiseBus_cfg  (n : State) : (raise .bus n).cfg = n.cfg := rfl
@[simp] theorem raiseBus_xferRaw  (n : State) : (raise .bus n).xferRaw = n.xferRaw := rfl
@[simp] theorem raiseBus_dataWrite  (n : State) : (raise .bus n).dataWrite = n.dataWrite := rfl
@[simp] theorem raiseBus_dataRead  (n : State) : (raise .bus n).dataRead = n.dataRead := rfl
@[simp] theorem raiseBus_pending  (n : State) : (raise .bus n).pending = n.pending := rfl
@[simp] theorem raiseBus_csSel  (n : State) : (raise .bus n).csSel = n.csSel := rfl
@[simp] theorem raiseBus_cg  (n : State) : (raise .bus n).cg = n.cg := rfl
@[simp] theorem raiseBus_sr  (n : State) : (raise .bus n).sr = n.sr := rfl
@[simp] theorem raiseBus_nWrite  (n : State) : (raise .bus n).nWrite = n.nWrite := rfl
@[simp] theorem raiseBus_nRead  (n : State) : (raise .bus n).nRead = n.nRead := rfl
@[simp] theorem raiseBus_fsm  (n : State) : (raise .bus n).fsm = n.fsm := rfl
@[simp] theorem raiseBus_write0  (n : State) : (raise .bus n).write0 = n.write0 := rfl
@[simp] theorem raiseBus_faultLen  (n : State) : (raise .bus n).faultLen = n.faultLen := rfl
@[simp] theorem raiseBus_faultBus  (n : State) : (raise .bus n).faultBus = true := rfl
@[simp] theorem raiseBus_wb  (n : State) : (raise .bus n).wb = n.wb := rfl
@[simp] theorem raiseBus_host  (n : State) : (raise .bus n).host = n.host := rfl
@[simp] theorem raiseBus_pins  (n : State) : (raise .bus n).pins = n.pins := rfl
@[simp] theorem raiseBus_out  (n : State) : (raise .bus n).out = n.out := rfl
@[simp] theorem raiseBus_tick  (n : State) : (raise .bus n).tick = n.tick := rfl

/-! ### `writeData` -/

@[simp] theorem writeData_par (w : Word) (n : State) : (writeData w n).par = n.par := rfl
@[simp] theorem writeData_cfg (w : Word) (n : State) : (writeData w n).cfg = n.cfg := rfl
@[simp] theorem writeData_xferRaw (w : Word) (n : State) : (writeData w n).xferRaw = n.xferRaw := rfl
@[simp] theorem writeData_dataWrite (w : Word) (n : State) : (writeData w n).dataWrite = w := rfl
@[simp] theorem writeData_dataRead (w : Word) (n : State) : (writeData w n).dataRead = n.dataRead := rfl
@[simp] theorem writeData_pending (w : Word) (n : State) : (writeData w n).pending = true := rfl
@[simp] theorem writeData_csSel (w : Word) (n : State) : (writeData w n).csSel = n.csSel := rfl
@[simp] theorem writeData_cg (w : Word) (n : State) : (writeData w n).cg = n.cg := rfl
@[simp] theorem writeData_sr (w : Word) (n : State) : (writeData w n).sr = n.sr := rfl
@[simp] theorem writeData_nWrite (w : Word) (n : State) : (writeData w n).nWrite = n.nWrite := rfl
@[simp] theorem writeData_nRead (w : Word) (n : State) : (writeData w n).nRead = n.nRead := rfl
@[simp] theorem writeData_fsm (w : Word) (n : State) : (writeData w n).fsm = n.fsm := rfl
@[simp] theorem writeData_write0 (w : Word) (n : State) : (writeData w n).write0 = n.write0 := rfl
@[simp] theorem writeData_faultLen (w : Word) (n : State) : (writeData w n).faultLen = n.faultLen := rfl
@[simp] theorem writeData_faultBus (w : Word) (n : State) : (writeData w n).faultBus = n.faultBus := rfl
@[simp] theorem writeData_wb (w : Word) (n : State) : (writeData w n).wb = n.wb := rfl
@[simp] theorem writeData_host (w : Word) (n : State) : (writeData w n).host = n.host := rfl
@[simp] theorem writeData_pins (w : Word) (n : State) : (writeData w n).pins = n.pins := rfl
@[simp] theorem writeData_out (w : Word) (n : State) : (writeData w n).out = n.out := rfl
@[simp] theorem writeData_tick (w : Word) (n : State) : (writeData w n).tick = n.tick := rfl

/-! ### `writeXfer` -/

@[simp] theorem writeXfer_par (w : Word) (n : State) : (writeXfer w n).par = n.par := rfl
@[simp] theorem writeXfer_cfg (w : Word) (n : State) : (writeXfer w n).cfg = n.cfg := rfl
@[simp] theorem writeXfer_xferRaw (w : Word) (n : State) : (writeXfer w n).xferRaw = w := rfl
@[simp] theorem writeXfer_dataWrite (w : Word) (n : State) : (writeXfer w n).dataWrite = n.dataWrite := rfl
@[simp] theorem writeXfer_dataRead (w : Word) (n : State) : (writeXfer w n).dataRead = n.dataRead := rfl
@[simp] theorem writeXfer_pending (w : Word) (n : State) : (writeXfer w n).pending = n.pending := rfl
@[simp] theorem writeXfer_csSel (w : Word) (n : State) : (writeXfer w n).csSel = n.csSel := rfl
@[simp] theorem writeXfer_cg (w : Word) (n : State) : (writeXfer w n).cg = n.cg := rfl
@[simp] theorem writeXfer_sr (w : Word) (n : State) : (writeXfer w n).sr = n.sr := rfl
@[simp] theorem writeXfer_nWrite (w : Word) (n : State) : (writeXfer w n).nWrite = n.nWrite := rfl
@[simp] theorem writeXfer_nRead (w : Word) (n : State) : (writeXfer w n).nRead = n.nRead := rfl
@[simp] theorem writeXfer_fsm (w : Word) (n : State) : (writeXfer w n).fsm = n.fsm := rfl
@[simp] theorem writeXfer_write0 (w : Word) (n : State) : (writeXfer w n).write0 = n.write0 := rfl
@[simp] theorem writeXfer_faultLen (w : Word) (n : State) : (writeXfer w n).faultLen = n.faultLen := rfl
@[simp] theorem writeXfer_faultBus (w : Word) (n : State) : (writeXfer w n).faultBus = n.faultBus := rfl
@[simp] theorem writeXfer_wb (w : Word) (n : State) : (writeXfer w n).wb = n.wb := rfl
@[simp] theorem writeXfer_host (w : Word) (n : State) : (writeXfer w n).host = n.host := rfl
@[simp] theorem writeXfer_pins (w : Word) (n : State) : (writeXfer w n).pins = n.pins := rfl
@[simp] theorem writeXfer_out (w : Word) (n : State) : (writeXfer w n).out = n.out := rfl
@[simp] theorem writeXfer_tick (w : Word) (n : State) : (writeXfer w n).tick = n.tick := rfl

/-! ### `writeConfig` -/

@[simp] theorem writeConfig_par (w : Word) (n : State) : (writeConfig w n).par = n.par := rfl
@[simp] theorem writeConfig_cfg (w : Word) (n : State) : (writeConfig w n).cfg = Cfg.ofWord w := rfl
@[simp] theorem writeConfig_xferRaw (w : Word) (n : State) : (writeConfig w n).xferRaw = n.xferRaw := rfl
@[simp] theorem writeConfig_dataWrite (w : Word) (n : State) : (writeConfig w n).dataWrite = n.dataWrite := rfl
@[simp] theorem writeConfig_dataRead (w : Word) (n : State) : (writeConfig w n).dataRead = n.dataRead := rfl
@[simp] theorem writeConfig_pending (w : Word) (n : State) : (writeConfig w n).pending = n.pending := rfl
@[simp] theorem writeConfig_csSel (w : Word) (n : State) : (writeConfig w n).csSel = n.csSel := rfl
@[simp] theorem writeConfig_cg (w : Word) (n : State) : (writeConfig w n).cg = n.cg := rfl
@[simp] theorem writeConfig_sr (w : Word) (n : State) : (writeConfig w n).sr = n.sr := rfl
@[simp] theorem writeConfig_nWrite (w : Word) (n : State) : (writeConfig w n).nWrite = n.nWrite := rfl
@[simp] theorem writeConfig_nRead (w : Word) (n : State) : (writeConfig w n).nRead = n.nRead := rfl
@[simp] theorem writeConfig_fsm (w : Word) (n : State) : (writeConfig w n).fsm = n.fsm := rfl
@[simp] theorem writeConfig_write0 (w : Word) (n : State) : (writeConfig w n).write0 = n.write0 := rfl
@[simp] theorem writeConfig_faultLen (w : Word) (n : State) : (writeConfig w n).faultLen = n.faultLen := rfl
@[simp] theorem writeConfig_faultBus (w : Word) (n : State) : (writeConfig w n).faultBus = n.faultBus := rfl
@[simp] theorem writeConfig_wb (w : Word) (n : State) : (writeConfig w n).wb = n.wb := rfl
@[simp] theorem writeConfig_host (w : Word) (n : State) : (writeConfig w n).host = n.host := rfl
@[simp] theorem writeConfig_pins (w : Word) (n : State) : (writeConfig w n).pins = n.pins := rfl
@[simp] theorem writeConfig_out (w : Word) (n : State) : (writeConfig w n).out = n.out := rfl
@[simp] theorem writeConfig_tick (w : Word) (n : State) : (writeConfig w n).tick = n.tick := rfl

/-! ### `advance` -/

@[simp] theorem advance_par  (n : State) : (advance n).par = n.par := rfl
@[simp] theorem advance_cfg  (n : State) : (advance n).cfg = n.cfg := rfl
@[simp] theorem advance_xferRaw  (n : State) : (advance n).xferRaw = n.xferRaw := rfl
@[simp] theorem advance_dataWrite  (n : State) : (advance n).dataWrite = n.dataWrite := rfl
@[simp] theorem advance_dataRead  (n : State) : (advance n).dataRead = n.dataRead := rfl
@[simp] theorem advance_pending  (n : State) : (advance n).pending = n.pending := rfl
@[simp] theorem advance_csSel  (n : State) : (advance n).csSel = n.csSel := rfl
@[simp] theorem advance_cg  (n : State) : (advance n).cg = n.cg := rfl
@[simp] theorem advance_sr  (n : State) : (advance n).sr = n.sr := rfl
@[simp] theorem advance_nWrite  (n : State) : (advance n).nWrite = n.nWrite := rfl
@[simp] theorem advance_nRead  (n : State) : (advance n).nRead = n.nRead := rfl
@[simp] theorem advance_fsm  (n : State) : (advance n).fsm = n.fsm := rfl
@[simp] theorem advance_write0  (n : State) : (advance n).write0 = n.write0 := rfl
@[simp] theorem advance_faultLen  (n : State) : (advance n).faultLen = n.faultLen := rfl
@[simp] theorem advance_faultBus  (n : State) : (advance n).faultBus = n.faultBus := rfl
@[simp] theorem advance_wb  (n : State) : (advance n).wb = n.wb := rfl
@[simp] theorem advance_host  (n : State) : (advance n).host = hostNext n.host n.out := rfl
@[simp] theorem advance_pins  (n : State) : (advance n).pins = n.pins.tail := rfl
@[simp] theorem advance_out  (n : State) : (advance n).out = n.out := rfl
@[simp] theorem advance_tick  (n : State) : (advance n).tick = n.tick + 1 := rfl

/-! ### `present` -/

@[simp] theorem present_par (d : Descriptor) (n : State) : (n.present d).par = n.par := rfl
@[simp] theorem present_cfg (d : Descriptor) (n : State) : (n.present d).cfg = n.cfg := rfl
@[simp] theorem present_xferRaw (d : Descriptor) (n : State) : (n.present d).xferRaw = n.xferRaw := rfl
@[simp] theorem present_dataWrite (d : Descriptor) (n : State) : (n.present d).dataWrite = n.dataWrite := rfl
@[simp] theorem present_dataRead (d : Descriptor) (n : State) : (n.present d).dataRead = n.dataRead := rfl
@[simp] theorem present_pending (d : Descriptor) (n : State) : (n.present d).pending = n.pending := rfl
@[simp] theorem present_csSel (d : Descriptor) (n : State) : (n.present d).csSel = n.csSel := rfl
@[simp] theorem present_cg (d : Descriptor) (n : State) : (n.present d).cg = n.cg := rfl
@[simp] theorem present_sr (d : Descriptor) (n : State) : (n.present d).sr = n.sr := rfl
@[simp] theorem present_nWrite (d : Descriptor) (n : State) : (n.present d).nWrite = n.nWrite := rfl
@[simp] theorem present_nRead (d : Descriptor) (n : State) : (n.present d).nRead = n.nRead := rfl
@[simp] theorem present_fsm (d : Descriptor) (n : State) : (n.present d).fsm = n.fsm := rfl
@[simp] theorem present_write0 (d : Descriptor) (n : State) : (n.present d).write0 = n.write0 := rfl
@[simp] theorem present_faultLen (d : Descriptor) (n : State) : (n.present d).faultLen = n.faultLen := rfl
@[simp] theorem present_faultBus (d : Descriptor) (n : State) : (n.present d).faultBus = n.faultBus := rfl
@[simp] theorem present_wb (d : Descriptor) (n : State) : (n.present d).wb = n.wb := rfl
@[simp] theorem present_host (d : Descriptor) (n : State) : (n.present d).host = .line (Request.ofDescriptor d) :: n.host := rfl
@[simp] theorem present_pins (d : Descriptor) (n : State) : (n.present d).pins = clearRst n.pins := rfl
@[simp] theorem present_out (d : Descriptor) (n : State) : (n.present d).out = n.out := rfl
@[simp] theorem present_tick (d : Descriptor) (n : State) : (n.present d).tick = n.tick := rfl

/-! ### `withOffline` -/

@[simp] theorem withOffline_par (b : Bool) (n : State) : (withOffline b n).par = n.par := rfl
@[simp] theorem withOffline_cfg (b : Bool) (n : State) : (withOffline b n).cfg = { n.cfg with offline := b } := rfl
@[simp] theorem withOffline_xferRaw (b : Bool) (n : State) : (withOffline b n).xferRaw = n.xferRaw := rfl
@[simp] theorem withOffline_dataWrite (b : Bool) (n : State) : (withOffline b n).dataWrite = n.dataWrite := rfl
@[simp] theorem withOffline_dataRead (b : Bool) (n : State) : (withOffline b n).dataRead = n.dataRead := rfl
@[simp] theorem withOffline_pending (b : Bool) (n : State) : (withOffline b n).pending = n.pending := rfl
@[simp] theorem withOffline_csSel (b : Bool) (n : State) : (withOffline b n).csSel = n.csSel := rfl
@[simp] theorem withOffline_cg (b : Bool) (n : State) : (withOffline b n).cg = n.cg := rfl
@[simp] theorem withOffline_sr (b : Bool) (n : State) : (withOffline b n).sr = n.sr := rfl
@[simp] theorem withOffline_nWrite (b : Bool) (n : State) : (withOffline b n).nWrite = n.nWrite := rfl
@[simp] theorem withOffline_nRead (b : Bool) (n : State) : (withOffline b n).nRead = n.nRead := rfl
@[simp] theorem withOffline_fsm (b : Bool) (n : State) : (withOffline b n).fsm = n.fsm := rfl
@[simp] theorem withOffline_write0 (b : Bool) (n : State) : (withOffline b n).write0 = n.write0 := rfl
@[simp] theorem withOffline_faultLen (b : Bool) (n : State) : (withOffline b n).faultLen = n.faultLen := rfl
@[simp] theorem withOffline_faultBus (b : Bool) (n : State) : (withOffline b n).faultBus = n.faultBus := rfl
@[simp] theorem withOffline_wb (b : Bool) (n : State) : (withOffline b n).wb = n.wb := rfl
@[simp] theorem withOffline_host (b : Bool) (n : State) : (withOffline b n).host = n.host := rfl
@[simp] theorem withOffline_pins (b : Bool) (n : State) : (withOffline b n).pins = n.pins := rfl
@[simp] theorem withOffline_out (b : Bool) (n : State) : (withOffline b n).out = n.out := rfl
@[simp] theorem withOffline_tick (b : Bool) (n : State) : (withOffline b n).tick = n.tick := rfl

/-- Changing `offline` is a difference in `offline` alone. -/
theorem differInOffline_withOffline (b : Bool) (n : State) : DifferInOffline n (withOffline b n) :=
  ⟨rfl, fun _ _ => rfl, rfl, fun _ _ => rfl, rfl, rfl, rfl⟩

/-! ### `coreNext` -/

@[simp] theorem coreNext_par  (n : State) : (coreNext n).par = n.par := rfl
@[simp] theorem coreNext_cfg  (n : State) : (coreNext n).cfg = n.cfg := rfl
@[simp] theorem coreNext_xferRaw  (n : State) : (coreNext n).xferRaw = n.xferRaw := rfl
@[simp] theorem coreNext_dataWrite  (n : State) : (coreNext n).dataWrite = n.dataWrite := rfl
@[simp] theorem coreNext_dataRead  (n : State) : (coreNext n).dataRead = (if n.done then n.sr else n.dataRead) := rfl
@[simp] theorem coreNext_pending  (n : State) : (coreNext n).pending = (if n.start then false else n.pending) := rfl
@[simp] theorem coreNext_csSel  (n : State) : (coreNext n).csSel = (if n.start then n.xferCs else n.csSel) := rfl
@[simp] theorem coreNext_cg  (n : State) : (coreNext n).cg = n.cg.next n.cgCe n.load n.biasIn := rfl
@[simp] theorem coreNext_sr  (n : State) : (coreNext n).sr = n.srNext := rfl
@[simp] theorem coreNext_nWrite  (n : State) : (coreNext n).nWrite = n.nWriteNext := rfl
@[simp] theorem coreNext_nRead  (n : State) : (coreNext n).nRead = n.nReadNext := rfl
@[simp] theorem coreNext_fsm  (n : State) : (coreNext n).fsm = n.fsm.next n.edge n.start n.bdone n.cfg.clkPhase := rfl
@[simp] theorem coreNext_write0  (n : State) : (coreNext n).write0 = (if n.edge && n.shift then n.bw else n.write0) := rfl
@[simp] theorem coreNext_faultLen  (n : State) : (coreNext n).faultLen = (n.faultLen || (n.start && n.tooLong)) := rfl
@[simp] theorem coreNext_faultBus  (n : State) : (coreNext n).faultBus = n.faultBus := rfl
@[simp] theorem coreNext_wb  (n : State) : (coreNext n).wb = n.wb := rfl
@[simp] theorem coreNext_host  (n : State) : (coreNext n).host = n.host := rfl
@[simp] theorem coreNext_pins  (n : State) : (coreNext n).pins = n.pins := rfl
@[simp] theorem coreNext_out  (n : State) : (coreNext n).out = n.out := rfl
@[simp] theorem coreNext_tick  (n : State) : (coreNext n).tick = n.tick := rfl

/-! ### `resetCycle` -/

@[simp] theorem resetCycle_par (s : State) : (resetCycle s).par = s.par := rfl
@[simp] theorem resetCycle_host (s : State) : (resetCycle s).host = s.host := rfl
@[simp] theorem resetCycle_pins (s : State) : (resetCycle s).pins = s.pins := rfl
@[simp] theorem resetCycle_tick (s : State) : (resetCycle s).tick = s.tick := rfl
@[simp] theorem resetCycle_out (s : State) :
    (resetCycle s).out = s.outputs false (Config.freeRdat s.tick) := rfl
@[simp] theorem resetCycle_fsm (s : State) : (resetCycle s).fsm = .idle := rfl
@[simp] theorem resetCycle_cg (s : State) : (resetCycle s).cg = ⟨0, false, true⟩ := rfl
@[simp] theorem resetCycle_nWrite (s : State) : (resetCycle s).nWrite = 0 := rfl
@[simp] theorem resetCycle_nRead (s : State) : (resetCycle s).nRead = 0 := rfl
@[simp] theorem resetCycle_wb (s : State) : (resetCycle s).wb = Wb.reset := rfl
@[simp] theorem resetCycle_faultBus (s : State) : (resetCycle s).faultBus = false := rfl
@[simp] theorem resetCycle_faultLen (s : State) : (resetCycle s).faultLen = false := rfl
@[simp] theorem resetCycle_pending (s : State) : (resetCycle s).pending = false := rfl
@[simp] theorem resetCycle_cfg (s : State) : (resetCycle s).cfg = Cfg.reset := rfl

end Sys2Proof.Machine
end

