-- ==== Sys2Proof/Laws/Encoding.lean ====
section
/-! SUPPORT. The fields of a descriptor that was put together from its fields, and the fields of a `config` word. -/

namespace Sys2Proof

open Machine

@[simp] theorem descriptorOf_we (b : Bool) (x : BitVec 2) (w : Word) : (descriptorOf b x w).we = b := by
  simp only [descriptorOf, Descriptor.we, BitVec.getLsbD_or, BitVec.getLsbD_shiftLeft, BitVec.getLsbD_setWidth]
  simp

@[simp] theorem descriptorOf_idx (b : Bool) (x : BitVec 2) (w : Word) : (descriptorOf b x w).idx = x := by
  apply BitVec.eq_of_getLsbD_eq
  intro k hk
  have h2 : k = 0 ∨ k = 1 := by omega
  simp only [descriptorOf, Descriptor.idx, BitVec.getLsbD_extractLsb', BitVec.getLsbD_or,
    BitVec.getLsbD_shiftLeft, BitVec.getLsbD_setWidth]
  obtain rfl | rfl := h2 <;> simp

@[simp] theorem descriptorOf_wdat (b : Bool) (x : BitVec 2) (w : Word) : (descriptorOf b x w).wdat = w := by
  apply BitVec.eq_of_getLsbD_eq
  intro k hk
  have h1 : k < 34 := by omega
  have h2 : k < 35 := by omega
  simp [descriptorOf, Descriptor.wdat, hk, h1, h2]

/-- The request that carries a descriptor carries exactly it. -/
@[simp] theorem ofDescriptor_descriptor (d : Descriptor) :
    (Request.ofDescriptor d).descriptor = descriptorOf d.we d.idx d.wdat := by
  simp [Request.ofDescriptor, Request.descriptor]

theorem getLsbD_bitAt (b : Bool) (k j : Nat) (hj : j < 32) : (bitAt b k).getLsbD j = (b && decide (j = k)) := by
  have h : (j < k) ∨ j = k ∨ k < j := by omega
  simp only [bitAt, BitVec.getLsbD_shiftLeft, BitVec.getLsbD_setWidth]
  obtain h | h | h := h
  · simp [h, hj]; omega
  · simp [h]; omega
  · have h0 : j - k ≠ 0 := by omega
    have h1 : ¬ j < k := by omega
    cases b <;> simp [h0, h1, hj]
    omega

/-- Every bit of a `config` word (R104). -/
theorem getLsbD_configWord (c : Cfg) (a p : Bool) (k : Nat) (hk : k < 32) :
    (configWord c a p).getLsbD k =
      if k = 0 then c.offline else if k = 1 then a else if k = 2 then p
      else if k = 3 then c.csPolarity else if k = 4 then c.clkPolarity else if k = 5 then c.clkPhase
      else if k = 6 then c.lsbFirst else if k = 7 then c.halfDuplex
      else if k < 16 then c.rsv.getLsbD (k - 8) else if k < 24 then c.divWrite.getLsbD (k - 16)
      else c.divRead.getLsbD (k - 24) := by
  simp only [configWord, BitVec.getLsbD_or, getLsbD_bitAt _ _ _ hk, BitVec.getLsbD_shiftLeft,
    BitVec.getLsbD_setWidth]
  interval_cases k <;> simp

end Sys2Proof
end

