-- ==== Sys2Proof/Laws/Ops.lean ====
section
/-! SUPPORT. One lemma per shared operation: everything a component's move, and a cycle with or without an access, can
do. Later proofs cite these and do not unfold the operations. -/

namespace Sys2Proof.Machine

/-! ## Signals -/

theorem edge_iff (s : State) : s.edge = true ↔ s.cg.cnt = 0 ∧ s.cg.bias = false := by
  simp [State.edge, ClockGen.edge, ClockGen.zero]

theorem cs_iff (s : State) : s.cs = true ↔ s.fsm ≠ .idle := by
  simp [State.cs]

theorem done_iff (s : State) : s.done = true ↔ s.edge = true ∧ s.bdone = true ∧ s.fsm = .hold := by
  simp [State.done, and_assoc]

theorem bdone_iff (s : State) : s.bdone = true ↔ s.nWrite = 0 ∧ s.nRead = 0 := by
  simp [State.bdone, State.bw, State.br]

/-- A start comes in IDLE or with the done pulse, under either value of START_REQUIRES_EDGE (R240). -/
theorem start_cases {s : State} (h : s.start = true) :
    s.pending = true ∧ (s.fsm = .idle ∨ s.done = true) := by
  have hcs : s.cs = false ↔ s.fsm = .idle := by simp [State.cs]
  unfold State.start at h
  split at h <;> simp only [Bool.and_eq_true, Bool.or_eq_true, Bool.not_eq_true', hcs] at h
  · exact ⟨h.1, h.2.imp And.left id⟩
  · exact h

/-- Under START_REQUIRES_EDGE = true a start is an edge (R240, R295.5). -/
theorem edge_of_start {s : State} (hp : s.par.startRequiresEdge = true) (h : s.start = true) :
    s.edge = true := by
  rw [State.start, if_pos hp, Bool.and_eq_true, Bool.or_eq_true, Bool.and_eq_true] at h
  obtain ⟨-, ⟨-, he⟩ | hd⟩ := h
  · exact he
  · exact ((done_iff s).1 hd).1

theorem not_start_of_setup {s : State} (h : s.fsm = .setup) : s.start = false := by
  by_contra hs
  obtain ⟨-, h' | h'⟩ := start_cases (by simpa using hs)
  · simp [h] at h'
  · simp [(done_iff s).1 h' |>.2.2] at h

theorem not_start_of_wait {s : State} (h : s.fsm = .wait) : s.start = false := by
  by_contra hs
  obtain ⟨-, h' | h'⟩ := start_cases (by simpa using hs)
  · simp [h] at h'
  · simp [(done_iff s).1 h' |>.2.2] at h

theorem not_start_of_bits {s : State} (hf : s.fsm = .hold) (hb : s.bdone = false) : s.start = false := by
  by_contra hs
  obtain ⟨-, h' | h'⟩ := start_cases (by simpa using hs)
  · simp [hf] at h'
  · simp [(done_iff s).1 h' |>.2.1] at hb

/-! ## The shift register -/

theorem getLsbD_srShift (lsb : Bool) (sr : Word) (k : Nat) (hk : k < 32) :
    (srShift lsb sr).getLsbD k =
      if lsb then sr.getLsbD (if k = 31 then 31 else k + 1) else sr.getLsbD (if k = 0 then 0 else k - 1) := by
  cases lsb <;> simp only [srShift, Bool.false_eq_true, if_true, if_false, BitVec.getLsbD_append,
    BitVec.getLsbD_extractLsb']
  · by_cases h : k = 0
    · simp [h]
    · have h1 : ¬ k < 1 := by omega
      simp [h, h1]; omega
  · by_cases h : k = 31
    · simp [h]
    · have h1 : k < 31 := by omega
      simp [h, h1, Nat.add_comm]

theorem getLsbD_srSample (lsb : Bool) (sr : Word) (i : Bool) (k : Nat) (hk : k < 32) :
    (srSample lsb sr i).getLsbD k = if k = (if lsb then 31 else 0) then i else sr.getLsbD k := by
  cases lsb <;> simp only [srSample, Bool.false_eq_true, if_true, if_false, BitVec.getLsbD_append,
    BitVec.getLsbD_extractLsb']
  · by_cases h : k = 0
    · simp [h]
    · have h1 : ¬ k < 1 := by omega
      simp [h, h1, show 1 + (k - 1) = k by omega]; omega
  · by_cases h : k = 31
    · simp [h]
    · have h1 : k < 31 := by omega
      simp [h, h1]

/-- The input signal `i` is the sampled input of R273. -/
theorem i_eq_sampledInput (s : State) : s.i = sampledInput s := by
  unfold State.i sampledInput
  cases s.cfg.halfDuplex <;> cases s.par.hasMiso <;> simp

/-! ## The components' moves -/

theorem clockMoved_coreNext (s : State) : ClockMoved s (coreNext s) := by
  refine ⟨fun h => ?_, fun h hc => ?_, fun h hc hb => ?_, fun h hc hb => ?_⟩
  · simp [ClockGen.next, h]
  · have hc' : s.cg.cnt ≠ 0#8 := hc
    simp [ClockGen.next, ClockGen.zero, h, hc']
  · simp [ClockGen.next, ClockGen.zero, h, hc, hb]
  · simp only [coreNext_cg, ClockGen.next, ClockGen.zero, h, hc, hb, State.biasIn]
    cases s.cg.clk <;> cases s.cfg.clkPhase <;> simp

theorem sequencerMoved_coreNext (s : State) : SequencerMoved s (coreNext s) := by
  refine ⟨fun he => ?_, fun he hf hs => ?_, fun he hf hs => ?_, fun he hf => ?_, fun he hf hb hs => ?_,
    fun he hf h => ?_, fun he hf => ?_, ?_⟩
  · simp [Fsm.next, he]
  · simp [Fsm.next, he, hf, hs]
  · simp [Fsm.next, he, hf, hs]
  · simp [Fsm.next, he, hf]
  · simp [Fsm.next, he, hf, hb, hs]
  · obtain h | h := h <;> simp [Fsm.next, he, hf, h]
  · simp [Fsm.next, he, hf]
  · simp [State.shift, and_assoc]

theorem shiftMoved_coreNext (s : State) : ShiftMoved s (coreNext s) := by
  refine ⟨fun hs => ?_, fun he hf hb hs k hk => ?_, fun he hf k hk => ?_, fun hs h => ?_⟩
  · simp [State.srNext, hs]
  · simp only [coreNext_sr, State.srNext, State.shift, hs, he, hf, hb]
    exact getLsbD_srShift _ _ k hk
  · simp only [coreNext_sr, State.srNext, State.shift, State.sample, not_start_of_setup hf, he, hf,
      i_eq_sampledInput]
    exact getLsbD_srSample _ _ _ k hk
  · simp only [coreNext_sr, State.srNext, State.shift, State.sample, hs]
    obtain h | h | h | h := h
    · simp [h]
    · simp [h]
    · simp [h]
    · obtain ⟨-, hb, hf⟩ := (done_iff s).1 h
      simp [hb, hf]

theorem bcCe_iff (s : State) : s.bcCe = true ↔ countEdge s := by
  unfold State.bcCe countEdge
  cases h : s.par.bitcountEnable <;> simp [State.sample, State.shift, and_assoc]

theorem not_start_of_countEdge {s : State} (h : countEdge s) : s.start = false := by
  obtain ⟨-, ⟨-, hf⟩ | ⟨-, hf, hb, hs⟩⟩ := h
  · exact not_start_of_setup hf
  · exact hs

theorem countMoved_coreNext (s : State) : CountMoved s (coreNext s) := by
  refine ⟨fun hs => ?_, fun hc hw => ?_, fun hc hw hr => ?_, fun hs h => ?_⟩
  · simp [State.nWriteNext, State.nReadNext, hs]
  · have hw' : s.nWrite ≠ 0#6 := hw
    simp [State.nWriteNext, State.nReadNext, not_start_of_countEdge hc, (bcCe_iff s).2 hc, State.bw, hw']
  · have hr' : s.nRead ≠ 0#6 := hr
    simp [State.nWriteNext, State.nReadNext, not_start_of_countEdge hc, (bcCe_iff s).2 hc, State.bw,
      State.br, hw, hr']
  · obtain h | ⟨hw, hr⟩ := h
    · have hc : s.bcCe = false := by rw [← Bool.not_eq_true, bcCe_iff]; exact h
      simp [State.nWriteNext, State.nReadNext, hs, hc]
    · simp [State.nWriteNext, State.nReadNext, hs, State.bw, State.br, hw, hr]

theorem handoverMoved_coreNext (s : State) : HandoverMoved s (coreNext s) := by
  refine ⟨rfl, rfl, ?_⟩
  simp [State.tooLong]

/-- A cycle without a host write makes every move of R293. -/
theorem coreMoved_coreNext (s : State) : CoreMoved s (coreNext s) :=
  ⟨clockMoved_coreNext s, sequencerMoved_coreNext s, shiftMoved_coreNext s, countMoved_coreNext s,
    handoverMoved_coreNext s⟩

/-- The fields the moves of R293 are about. -/
structure CoreFieldsEq (t u : State) : Prop where
  cg : t.cg = u.cg
  fsm : t.fsm = u.fsm
  write0 : t.write0 = u.write0
  sr : t.sr = u.sr
  nWrite : t.nWrite = u.nWrite
  nRead : t.nRead = u.nRead
  csSel : t.csSel = u.csSel
  dataRead : t.dataRead = u.dataRead
  faultLen : t.faultLen = u.faultLen

/-- The moves of R293 see only those fields of the next state. -/
theorem CoreMoved.congr {s t u : State} (h : CoreMoved s u) (e : CoreFieldsEq t u) : CoreMoved s t := by
  obtain ⟨h1, h2, h3, h4, h5⟩ := h
  refine ⟨?_, ?_, ?_, ?_, ?_⟩
  · simpa only [ClockMoved, e.cg] using h1
  · simpa only [SequencerMoved, e.fsm, e.write0] using h2
  · simpa only [ShiftMoved, e.sr] using h3
  · simpa only [CountMoved, e.nWrite, e.nRead] using h4
  · simpa only [HandoverMoved, e.csSel, e.dataRead, e.faultLen] using h5

/-! ## Cycles -/

/-- What every cycle with `rst = 0` leaves as it was, whatever the access. -/
structure EnvKept (s t : State) : Prop where
  par : t.par = s.par
  host : t.host = s.host
  pins : t.pins = s.pins
  tick : t.tick = s.tick

/-- Everything a read's cycle can do, under either adapter. -/
theorem readCycle_spec (live registered : Word) (s : State) :
    CoreFieldsEq (readCycle live registered s) (coreNext s) ∧ EnvKept s (readCycle live registered s) ∧
    (readCycle live registered s).cfg = s.cfg ∧ (readCycle live registered s).xferRaw = s.xferRaw ∧
    (readCycle live registered s).dataWrite = s.dataWrite ∧
    (readCycle live registered s).pending = (if s.start then false else s.pending) ∧
    (readCycle live registered s).faultBus = s.faultBus ∧
    (s.par.busAdapter = .atomic → (readCycle live registered s).wb = s.wb ∧
      (readCycle live registered s).out = s.outputs true live) ∧
    (s.par.busAdapter = .wbRegistered →
      (readCycle live registered s).wb = s.wbNext true true registered ∧
      (readCycle live registered s).out = s.outputs s.wb.ack s.wb.datR) := by
  unfold readCycle
  cases h : s.par.busAdapter <;>
    exact ⟨⟨rfl, rfl, rfl, rfl, rfl, rfl, rfl, rfl, rfl⟩, ⟨rfl, rfl, rfl, rfl⟩, rfl, rfl, rfl, rfl, rfl,
      by simp, by simp⟩

/-- Everything a cycle without an access can do, under either adapter. -/
theorem idleCycle_spec (s : State) :
    CoreFieldsEq (idleCycle s) (coreNext s) ∧ EnvKept s (idleCycle s) ∧
    (idleCycle s).cfg = s.cfg ∧ (idleCycle s).xferRaw = s.xferRaw ∧ (idleCycle s).dataWrite = s.dataWrite ∧
    (idleCycle s).pending = (if s.start then false else s.pending) ∧
    (s.par.busAdapter = .atomic → (idleCycle s).wb = s.wb ∧ (idleCycle s).faultBus = s.faultBus ∧
      (idleCycle s).out = s.outputs false (Config.freeRdat s.tick)) ∧
    (s.par.busAdapter = .wbRegistered →
      (idleCycle s).wb = s.wbNext false false (Config.freeDatR s.tick) ∧
      (idleCycle s).faultBus = (s.faultBus || s.wb.ack) ∧
      (idleCycle s).out = s.outputs s.wb.ack s.wb.datR) := by
  unfold idleCycle
  cases h : s.par.busAdapter <;> cases ha : s.wb.ack <;>
    exact ⟨⟨rfl, rfl, rfl, rfl, rfl, rfl, rfl, rfl, rfl⟩, ⟨rfl, rfl, rfl, rfl⟩, rfl, rfl, rfl, rfl,
      by simp, by simp⟩

/-- A write's cycle is the cycle without the write, then the commit where it is performed. -/
def writeBase (ready : Bool) (registered : Word) (s : State) : State :=
  match s.par.busAdapter with
  | .atomic => setOut (s.outputs ready (Config.freeRdat s.tick)) (coreNext s)
  | .wbRegistered =>
    setOut (s.outputs s.wb.ack s.wb.datR) (setWb (s.wbNext true ready registered) (coreNext s))

/-- Whether a write's cycle commits. -/
def writeCommits (ready : Bool) (s : State) : Bool :=
  match s.par.busAdapter with
  | .atomic => ready
  | .wbRegistered => s.wb.ack

theorem writeCycle_eq (ready : Bool) (registered : Word) (commit : State → State) (s : State) :
    writeCycle ready registered commit s =
      if writeCommits ready s then commit (writeBase ready registered s)
      else writeBase ready registered s := by
  unfold writeCycle writeCommits writeBase
  cases s.par.busAdapter <;> rfl

/-- Everything a write's cycle does before its commit, under either adapter. -/
theorem writeBase_spec (ready : Bool) (registered : Word) (s : State) :
    CoreFieldsEq (writeBase ready registered s) (coreNext s) ∧ EnvKept s (writeBase ready registered s) ∧
    (writeBase ready registered s).cfg = s.cfg ∧ (writeBase ready registered s).xferRaw = s.xferRaw ∧
    (writeBase ready registered s).dataWrite = s.dataWrite ∧
    (writeBase ready registered s).pending = (if s.start then false else s.pending) ∧
    (writeBase ready registered s).faultBus = s.faultBus ∧
    (s.par.busAdapter = .atomic → (writeBase ready registered s).wb = s.wb ∧
      (writeBase ready registered s).out = s.outputs ready (Config.freeRdat s.tick)) ∧
    (s.par.busAdapter = .wbRegistered →
      (writeBase ready registered s).wb = s.wbNext true ready registered ∧
      (writeBase ready registered s).out = s.outputs s.wb.ack s.wb.datR) := by
  unfold writeBase
  cases h : s.par.busAdapter <;>
    exact ⟨⟨rfl, rfl, rfl, rfl, rfl, rfl, rfl, rfl, rfl⟩, ⟨rfl, rfl, rfl, rfl⟩, rfl, rfl, rfl, rfl, rfl,
      by simp, by simp⟩

/-- The pins of a cycle's outputs are those of R271, R272 and R274. -/
theorem pinsShown_of_outputs {s t : State} {ack : Bool} {rdat : Word} (h : t.out = s.outputs ack rdat) :
    PinsShown s t := by
  have hcs : s.cs = if s.fsm = .idle then false else true := by
    cases hf : s.fsm <;> simp [State.cs, hf]
  simp only [PinsShown, h, State.outputs]
  refine ⟨?_, ?_, ?_, ?_, fun j hj => ?_⟩
  · by_cases hf : s.fsm = .idle <;> cases hc : s.cg.clk <;> cases hp : s.cfg.clkPolarity <;>
      simp [State.clkPin, hcs, hf, hc, hp]
  · simp [State.mosiPin, State.cs, State.oe, State.bw, and_assoc]
  · simp only [State.mosiPin, State.o, serialOut]
    cases s.cfg.lsbFirst <;> simp
  · simp [State.csLines]
  · simp only [State.csLines, List.getElem?_map, List.getElem?_range hj, Option.map_some, State.csLine]
    by_cases hf : s.fsm = .idle <;> cases hb : s.csSel.getLsbD j <;> cases s.cfg.csPolarity <;>
      simp [hcs, hf]

end Sys2Proof.Machine
end

