-- ==== Sys2Proof/Laws/PerInstr.lean ====
section
/-! SUPPORT. Statements made of every instruction as syntax, one lemma per constructor: an instruction's descriptor lies
in the row of the access map that carries its mnemonic (spec/30_encoding.md R108, spec/opcode_table.json). -/

namespace Sys2Proof.Laws.MatchesItsRow

/-- The descriptor of `i` has the fixed bits its row of the access map gives. -/
def Statement (i : Instr) : Prop :=
  ∃ row ∈ accessMap, row.mnemonic = i.mnemonic ∧ encode i &&& row.mask = row.pattern

/-- The fixed bits are `we` and `idx`, whatever `wdat` is. -/
theorem descriptorOf_fixed (b : Bool) (x : BitVec 2) (w : Word) :
    descriptorOf b x w &&& 0x700000000 = descriptorOf b x 0 := by
  apply BitVec.eq_of_getLsbD_eq
  intro k hk
  simp only [descriptorOf, BitVec.getLsbD_and, BitVec.getLsbD_or, BitVec.getLsbD_shiftLeft,
    BitVec.getLsbD_setWidth]
  interval_cases k <;> simp

theorem rdData : Statement .rdData := ⟨⟨"RD_DATA", 0x000000000, 0x700000000⟩, by decide, rfl, by decide⟩

theorem rdXfer : Statement .rdXfer := ⟨⟨"RD_XFER", 0x100000000, 0x700000000⟩, by decide, rfl, by decide⟩

theorem rdConfig : Statement .rdConfig := ⟨⟨"RD_CONFIG", 0x200000000, 0x700000000⟩, by decide, rfl, by decide⟩

theorem rdConfig3 : Statement .rdConfig3 := ⟨⟨"RD_CONFIG3", 0x300000000, 0x700000000⟩, by decide, rfl, by decide⟩

theorem wrData (w : Word) : Statement (.wrData w) :=
  ⟨⟨"WR_DATA", 0x400000000, 0x700000000⟩, by decide, rfl, (descriptorOf_fixed true 0 w).trans (by decide)⟩

theorem wrXfer (w : Word) : Statement (.wrXfer w) :=
  ⟨⟨"WR_XFER", 0x500000000, 0x700000000⟩, by decide, rfl, (descriptorOf_fixed true 1 w).trans (by decide)⟩

theorem wrConfig (w : Word) : Statement (.wrConfig w) :=
  ⟨⟨"WR_CONFIG", 0x600000000, 0x700000000⟩, by decide, rfl, (descriptorOf_fixed true 2 w).trans (by decide)⟩

theorem wrConfig3 (w : Word) : Statement (.wrConfig3 w) :=
  ⟨⟨"WR_CONFIG3", 0x700000000, 0x700000000⟩, by decide, rfl, (descriptorOf_fixed true 3 w).trans (by decide)⟩

end Sys2Proof.Laws.MatchesItsRow
end

