-- ==== Sys2Proof/Laws/Step.lean ====
section
/-! SUPPORT. What exec, a cycle and a step can do, once for all accesses: every proof about a run goes through these. -/

namespace Sys2Proof.Machine

/-- What every cycle with `rst = 0` from `s` to `u` does, whatever access it holds. -/
structure CycleMoves (s u : State) : Prop where
  core : CoreFieldsEq u (coreNext s)
  env : EnvKept s u
  /-- `pending` is cleared by start and set by an accepted `data` write. -/
  pending : u.pending = (if s.start then false else s.pending) ∨ u.pending = true

/-- Every access's cycle answers a next state and makes the core's moves. -/
theorem exec_cases (i : Instr) (s : State) : ∃ u, exec i s = .next u ∧ CycleMoves s u := by
  have read (a b : Word) : CycleMoves s (readCycle a b s) :=
    let h := readCycle_spec a b s
    ⟨h.1, h.2.1, .inl h.2.2.2.2.2.1⟩
  have base (r : Bool) (b : Word) : CycleMoves s (writeBase r b s) :=
    let h := writeBase_spec r b s
    ⟨h.1, h.2.1, .inl h.2.2.2.2.2.1⟩
  have write (r : Bool) (b : Word) (c : State → State)
      (hc : ∀ n, CycleMoves s n → CycleMoves s (c n)) : CycleMoves s (writeCycle r b c s) := by
    rw [writeCycle_eq]
    split
    · exact hc _ (base r b)
    · exact base r b
  cases i with
  | rdData => exact ⟨_, rfl, read _ _⟩
  | rdXfer => exact ⟨_, rfl, read _ _⟩
  | rdConfig => exact ⟨_, rfl, read _ _⟩
  | rdConfig3 => exact ⟨_, rfl, read _ _⟩
  | wrData w =>
    exact ⟨_, rfl, write _ _ _ fun n h =>
      ⟨⟨h.core.cg, h.core.fsm, h.core.write0, h.core.sr, h.core.nWrite, h.core.nRead, h.core.csSel,
        h.core.dataRead, h.core.faultLen⟩, ⟨h.env.par, h.env.host, h.env.pins, h.env.tick⟩, .inr rfl⟩⟩
  | wrXfer w =>
    exact ⟨_, rfl, write _ _ _ fun n h =>
      ⟨⟨h.core.cg, h.core.fsm, h.core.write0, h.core.sr, h.core.nWrite, h.core.nRead, h.core.csSel,
        h.core.dataRead, h.core.faultLen⟩, ⟨h.env.par, h.env.host, h.env.pins, h.env.tick⟩, h.pending⟩⟩
  | wrConfig w =>
    exact ⟨_, rfl, write _ _ _ fun n h =>
      ⟨⟨h.core.cg, h.core.fsm, h.core.write0, h.core.sr, h.core.nWrite, h.core.nRead, h.core.csSel,
        h.core.dataRead, h.core.faultLen⟩, ⟨h.env.par, h.env.host, h.env.pins, h.env.tick⟩, h.pending⟩⟩
  | wrConfig3 w =>
    exact ⟨_, rfl, write _ _ _ fun n h =>
      ⟨⟨h.core.cg, h.core.fsm, h.core.write0, h.core.sr, h.core.nWrite, h.core.nRead, h.core.csSel,
        h.core.dataRead, h.core.faultLen⟩, ⟨h.env.par, h.env.host, h.env.pins, h.env.tick⟩, h.pending⟩⟩

/-- What a cycle with no reset answers. -/
theorem cycle_eq {s : State} (h : s.pinIn.rst = false) :
    cycle s = match s.presented with
      | some i => exec i s
      | none => .next (idleCycle s) := by
  unfold cycle
  exact if_neg (by simp [h])

/-- A cycle answers a next state: the reset state's, or one that makes the core's moves. -/
theorem cycle_cases (s : State) :
    (s.pinIn.rst = true ∧ cycle s = .next (resetCycle s)) ∨
    (s.pinIn.rst = false ∧ ∃ u, cycle s = .next u ∧ CycleMoves s u) := by
  cases h : s.pinIn.rst
  · refine .inr ⟨rfl, ?_⟩
    rw [cycle_eq h]
    cases hp : s.presented with
    | some i => exact exec_cases i s
    | none =>
      have hi := idleCycle_spec s
      exact ⟨_, rfl, hi.1, hi.2.1, .inl hi.2.2.2.2.2.1⟩
  · exact .inl ⟨rfl, by simp [cycle, h]⟩

/-- A step answers the next state of a reset cycle, or of a cycle that makes the core's moves, advanced. -/
theorem step_cases (s : State) :
    (s.pinIn.rst = true ∧ step s = .next (advance (resetCycle s))) ∨
    (s.pinIn.rst = false ∧ ∃ u, step s = .next (advance u) ∧ CycleMoves s u) := by
  obtain ⟨h, hc⟩ | ⟨h, u, hc, hu⟩ := cycle_cases s
  · exact .inl ⟨h, by rw [step, hc]; rfl⟩
  · exact .inr ⟨h, u, by rw [step, hc]; rfl, hu⟩

/-- The same for the next state of a given step. -/
theorem step_next_cases {s t : State} (h : step s = .next t) :
    (s.pinIn.rst = true ∧ t = advance (resetCycle s)) ∨
    (s.pinIn.rst = false ∧ ∃ u, t = advance u ∧ CycleMoves s u) := by
  obtain ⟨hr, hs⟩ | ⟨hr, u, hs, hu⟩ := step_cases s
  · rw [hs] at h
    exact .inl ⟨hr, by injection h with h; exact h.symm⟩
  · rw [hs] at h
    exact .inr ⟨hr, u, by injection h with h; exact h.symm, hu⟩

theorem advance_coreFields {u v : State} (h : CoreFieldsEq u v) : CoreFieldsEq (advance u) v :=
  ⟨h.cg, h.fsm, h.write0, h.sr, h.nWrite, h.nRead, h.csSel, h.dataRead, h.faultLen⟩

/-- An access whose cycle reads the script, the pins or the cycle count changes none of them. -/
theorem exec_env {i : Instr} {s t : State} (h : exec i s = .next t) : EnvKept s t := by
  obtain ⟨u, hu, hm⟩ := exec_cases i s
  rw [hu] at h
  injection h with h
  exact h ▸ hm.env

/-- A step answers the next state `stepNext` names. -/
theorem step_eq_stepNext (s : State) : step s = .next (stepNext s) := by
  obtain ⟨-, h⟩ | ⟨-, u, h, -⟩ := step_cases s <;> simp [stepNext, h]

/-- The pin inputs of the next cycle are the rest of the list. -/
theorem stepNext_pins (s : State) : (stepNext s).pins = s.pins.tail := by
  obtain ⟨-, h⟩ | ⟨-, u, h, hu⟩ := step_cases s
  · simp [stepNext, h]
  · simp [stepNext, h, hu.env.pins]

/-- Where no pin input is listed, none is listed later, so no reset comes (log entry 4). -/
theorem resetFree_of_no_pins {s : State} (h : s.pins = []) (k : Nat) : s.resetFree k := by
  have hn : ∀ j, (s.after j).pins = [] := by
    intro j
    induction j with
    | zero => exact h
    | succ n ih => rw [State.after, stepNext_pins, ih]; rfl
  intro j _
  simp [State.pinIn, hn j]

end Sys2Proof.Machine
end

