-- ==== Sys2Proof/Tests/Slice0.lean ====
section
/-! SUPPORT. The model's own tests. Expected values come from spec/95_test_vectors.md (the vector is named at each test)
or from the encodings of spec/30_encoding.md. The last part holds one witness for every statement with hypotheses. -/

namespace Sys2Proof.Tests

open Machine

/-! ## Helpers -/

/-- The next state of an outcome. -/
def got (o : Host.Outcome State Fault Refusal) : Option State :=
  match o with
  | .next t => some t
  | .fault _ => none
  | .refused _ => none

/-- Pin inputs for the next two cycles, constant and without reset. -/
def wires (b : Bool) : List PinIn := [⟨false, b, b⟩, ⟨false, b, b⟩]

/-- A pin input with `rst = 1`. -/
def inReset : PinIn := ⟨true, false, false⟩

/-- Idle and online: `cfgWord` and `xfer` written, serial input 1, ClockGenerator at an edge. -/
def idleAt (cfgWord xfer data : Word) : State :=
  { State.reset with cfg := Cfg.ofWord cfgWord, xferRaw := xfer, dataWrite := data, pins := wires true }

/-- The same with a transfer under way. -/
def busyAt (cfgWord : Word) (f : Fsm) (g : ClockGen) (nw nr : Count) (sr : Word) : State :=
  { idleAt cfgWord 0x00040001 0x90000000 with fsm := f, cg := g, nWrite := nw, nRead := nr, sr := sr, csSel := 1 }

/-- The same under the bus adapter, with `wb.ack` as given. -/
def adapterAt (ack : Bool) : State :=
  { State.resetWith { Params.default with busAdapter := .wbRegistered } with
    wb := ⟨ack, 0, false, false⟩, pins := wires true }

/-! ## Well-formedness -/

theorem test_refused_descriptor_above_bit_34 :
    isDescriptor 0x800000000 = false ∧ decode 0x800000000 = .error .notADescriptor := by decide

theorem test_accepted_descriptor_all_ones : isDescriptor 0x7FFFFFFFF = true := by decide

theorem test_refused_no_chip_select_pin :
    ({ Params.default with nCsPins := 0 } : Params).wellFormed = false := by decide

theorem test_refused_seventeen_chip_select_pins :
    ({ Params.default with nCsPins := 17 } : Params).wellFormed = false := by decide

theorem test_accepted_sixteen_chip_select_pins :
    ({ Params.default with nCsPins := 16 } : Params).wellFormed = true := by decide

/-! ## Decoding: words written out from R100 and spec/opcode_table.json, `we` `idx` `wdat` -/

theorem test_decode_rdData :
    decodeTableWord 40 0b0_00_00000000000000000000000000000000 = some .rdData := by decide

theorem test_decode_rdXfer :
    decodeTableWord 40 0b0_01_00000000000000000000000000000000 = some .rdXfer := by decide

theorem test_decode_rdConfig :
    decodeTableWord 40 0b0_10_00000000000000000000000000000000 = some .rdConfig := by decide

theorem test_decode_rdConfig3 :
    decodeTableWord 40 0b0_11_00000000000000000000000000000000 = some .rdConfig3 := by decide

theorem test_decode_wrData :
    decodeTableWord 40 0b1_00_10010000000000000000000000000000 = some (.wrData 0x90000000) := by decide

theorem test_decode_wrXfer :
    decodeTableWord 40 0b1_01_00000000000001000000000000000001 = some (.wrXfer 0x00040001) := by decide

theorem test_decode_wrConfig :
    decodeTableWord 40 0b1_10_00000101000000110000000010100000 = some (.wrConfig 0x050300A0) := by decide

theorem test_decode_wrConfig3 :
    decodeTableWord 40 0b1_11_00000000000001110000000000100000 = some (.wrConfig3 0x00070020) := by decide

/-- A read ignores `wdat` (R100). -/
theorem test_decode_read_ignores_wdat : decodeTableWord 40 0x0FFFFFFFF = some .rdData := by decide

/-- No word lies in two rows of the access map (R108). -/
theorem test_access_map_rows_do_not_overlap :
    accessMap.Pairwise (fun a b => a.pattern &&& b.mask ≠ b.pattern &&& a.mask) := by decide

/-! ## Accesses, one step each -/

/-- P1 cycle 27: `rd data` returns the captured word. -/
theorem test_rdData_returns_capture :
    (got (exec .rdData { busyAt 0x050300A0 .idle ⟨0, true, true⟩ 0 0 0x80000009 with dataRead := 0x80000009 })).map
      (fun t => (t.out.ack, t.out.rdat, t.cg)) = some (true, 0x80000009, ⟨0, false, true⟩) := by decide

/-- R233: a read in the done cycle (P1 cycle 25) returns the value from before the capture. -/
theorem test_rdData_in_done_cycle :
    (got (exec .rdData { busyAt 0x050300A0 .hold ⟨0, false, false⟩ 0 0 0x80000009 with dataRead := 0x12345678 })).map
      (fun t => (t.out.rdat, t.dataRead, t.fsm, t.cg)) =
        some (0x12345678, 0x80000009, .idle, ⟨1, true, true⟩) := by decide

/-- RF-3: the raw word, reserved bits included. -/
theorem test_rdXfer_returns_raw_word :
    (got (exec .rdXfer (idleAt 0 0xFFFFFFFF 0))).map (fun t => (t.out.ack, t.out.rdat, t.fsm)) =
      some (true, 0xFFFFFFFF, .idle) := by decide

/-- BC-3: the load at `start`, the chip-select mask and `fault_len`. -/
theorem test_rdXfer_in_start_cycle :
    (got (exec .rdXfer { idleAt 0 0x3F3F8001 0x90000000 with pending := true })).map
      (fun t => (t.nWrite, t.nRead, t.csSel, t.sr, t.faultLen, t.pending)) =
        some (63, 63, 0x8001, 0x90000000, true, false) := by decide

/-- P1 cycle 3: `pending` is live, and the start edge leads to WAIT for `clk_phase = 1`. -/
theorem test_rdConfig_in_start_cycle :
    (got (exec .rdConfig { idleAt 0x050300A0 0x00040001 0x90000000 with pending := true })).map
      (fun t => (t.out.rdat, t.fsm, t.cg, t.nWrite, t.sr)) =
        some (0x050300A4, .wait, ⟨1, false, false⟩, 4, 0x90000000) := by decide

/-- P1 cycle 8: `active` is live, the sample sets bit 0 and is counted. -/
theorem test_rdConfig_at_sample_edge :
    (got (exec .rdConfig (busyAt 0x050300A0 .setup ⟨0, false, true⟩ 4 0 0x90000000))).map
      (fun t => (t.out.rdat, t.fsm, t.cg, t.nWrite, t.sr)) =
        some (0x050300A2, .hold, ⟨1, false, false⟩, 3, 0x90000001) := by decide

/-- RF-1: after reset the alias returns 1. -/
theorem test_rdConfig3_after_reset :
    (got (exec .rdConfig3 State.reset)).map (fun t => (t.out.ack, t.out.rdat, t.out.clk.drive)) =
      some (true, 0x00000001, false) := by decide

/-- SR-2: the shift of an LSB-first register; `write0` takes "write bits remain" (R200). -/
theorem test_rdConfig3_at_shift_edge :
    (got (exec .rdConfig3 (busyAt 0x00000040 .hold ⟨0, false, true⟩ 3 0 0x00000009))).map
      (fun t => (t.fsm, t.sr, t.write0, t.nWrite)) = some (.setup, 0x00000004, true, 3) := by decide

/-- RF-6, P2 cycle 19: the accepted write in the chaining cycle. -/
theorem test_wrData_in_chaining_cycle :
    (got (exec (.wrData 0x50000000)
      { busyAt 0x02020000 .hold ⟨0, false, true⟩ 0 0 0x8000000F with pending := true, dataWrite := 0xA0000000 })).map
      (fun t => ((t.out.ack, t.pending, t.dataWrite), (t.sr, t.dataRead, t.nWrite, t.fsm))) =
        some ((true, true, 0x50000000), (0xA0000000, 0x8000000F, 4, .setup)) := by decide

/-- P2 cycle 3: a `data` write in the start cycle is stalled. -/
theorem test_wrData_stalled_in_start_cycle :
    (got (exec (.wrData 0xA0000000) { idleAt 0x02020000 0x00040001 0xF0000000 with pending := true })).map
      (fun t => (t.out.ack, t.pending, t.dataWrite, t.sr, t.fsm)) =
        some (false, false, 0xF0000000, 0xF0000000, .setup) := by decide

/-- HZ-2 cycle 3: an `xfer` write in the start cycle does not reach that start. -/
theorem test_wrXfer_in_start_cycle :
    (got (exec (.wrXfer 0x00040001) { idleAt 0 0x00080001 0xAA000000 with pending := true })).map
      (fun t => (t.out.ack, t.xferRaw, t.nWrite)) = some (true, 0x00040001, 8) := by decide

/-- SR-4 with `i = 1`: the sample of an LSB-first register, in the cycle of another access (EX-2). -/
theorem test_wrXfer_at_sample_edge :
    (got (exec (.wrXfer 0xFFFFFFFF) (busyAt 0x00000040 .setup ⟨0, false, false⟩ 0 3 0x00000009))).map
      (fun t => (t.out.ack, t.xferRaw, t.sr, t.nWrite, t.nRead)) =
        some (true, 0xFFFFFFFF, 0x80000009, 0, 2) := by decide

/-- RF-2: the word reads back with bits 1 and 2 replaced by the live status. -/
theorem test_wrConfig_reads_back :
    (got (exec (.wrConfig 0xFFFFFFFF) State.reset)).map (fun t => (t.out.ack, t.configLive)) =
      some (true, 0xFFFFFFF9) := by decide

/-- WB-1 cycle 1: the adapter commits in the acknowledge cycle. -/
theorem test_wrConfig_commits_under_the_adapter :
    (got (exec (.wrConfig 0) (adapterAt true))).map (fun t => (t.out.ack, t.cfg.offline, t.wb.ack)) =
      some (true, false, false) := by decide

/-- RF-7: a write through the alias. -/
theorem test_wrConfig3_writes_config :
    (got (exec (.wrConfig3 0x00070020) State.reset)).map (fun t => t.configLive) = some 0x00070020 := by decide

/-- P1 cycle 4: the pins of WAIT; the cycle's outputs still follow the old configuration. -/
theorem test_wrConfig3_shows_the_old_pins :
    (got (exec (.wrConfig3 1) (busyAt 0x050300A0 .wait ⟨1, false, false⟩ 4 0 0x90000000))).map
      (fun t => (t.out.clk, t.out.mosi, t.out.csLines)) =
        some (⟨true, false⟩, ⟨true, true⟩, [⟨true, false⟩, ⟨true, true⟩]) := by decide

/-- WB-1 cycle 6: a dropped request sets `fault_bus` and writes nothing. -/
theorem test_step_dropped_request :
    (got (step (adapterAt true))).map (fun t => (t.faultBus, t.xferRaw, t.wb.ack)) = some (true, 0, false) := by
  decide

/-- RS-1: reset during a transfer. -/
theorem test_step_reset_abandons_the_transfer :
    (got (step { busyAt 0 .hold ⟨0, false, true⟩ 0 0 5 with pins := [inReset], pending := true })).map
      (fun t => (t.fsm, t.pending, t.cfg.offline, t.dataRead, t.cg)) =
        some (.idle, false, true, 0, ⟨0, false, true⟩) := by decide

/-- A word placed by withFetchWord is the first access after reset (P1 line 1). -/
theorem test_step_runs_the_placed_word :
    (got (step (State.reset.withFetchWord 40 0x6050300A0))).map (fun t => (t.cfg, t.out.ack, t.host)) =
      some (⟨false, false, false, true, false, true, 0, 3, 5⟩, true, []) := by decide

/-! ## Witnesses: states and operands that meet the hypotheses of each statement, clause by clause -/

theorem witness_EncodeThenDecodeGivesTheAccess : Instr.wellFormed (.wrData 0xFFFFFFFF) = true := by decide

theorem witness_DecoderFollowsTheAccessMap :
    (∀ row ∈ accessMap, row.pattern &&& row.mask = row.pattern) ∧
    ((0x400000000 : Descriptor).getLsbD 34 = true ∧ 0 < 32) ∧
    ((0x7FFFFFFFF : Descriptor).getLsbD 34 = true ∧ 31 < 32) ∧
    decode 0x7FFFFFFFF = .ok (.wrConfig3 0xFFFFFFFF) := by decide

theorem witness_OnlyTheLowAddressBitsAreDecoded :
    ∃ r q : Request, r.we = q.we ∧ r.wdat = q.wdat ∧ r.adr % 4 = q.adr % 4 ∧ r.adr ≠ q.adr :=
  ⟨⟨true, 3, 5⟩, ⟨true, 7, 5⟩, by decide⟩

/-- The flags at both ends of their range, and the first and the last bit of each field. -/
theorem witness_PseudoOperationsPlaceTheFields :
    ((255 : Word) < 256 ∧ (0 : Word) < 256) ∧ (0 < 16 ∧ 15 < 16) ∧ (0 < 6 ∧ 5 < 6) := by decide

theorem witness_StepRunsThePresentedAccess :
    ∃ (s : State) (r : Request) (i : Instr),
      s.pinIn.rst = false ∧ s.request = some r ∧ decodeDescriptor r.descriptor = i ∧ i = .wrXfer 5 :=
  ⟨{ State.reset with host := [.line ⟨true, 1, 5⟩], pins := wires true }, ⟨true, 1, 5⟩, _, by decide, rfl, rfl,
    by decide⟩

theorem witness_PlacedWordRunsNext : decodeTableWord 40 0x6050300A0 = some (.wrConfig 0x050300A0) := by decide

theorem witness_ScriptFollowsTheNotation :
    ∀ op ∈ [HostOp.line ⟨true, 0, 7⟩, .once ⟨false, 3, 0⟩, .idle, .poll],
      ∃ s t : State, s.host = op :: [] ∧ step s = .next t :=
  fun op _ => ⟨{ State.reset with host := [op] }, _, rfl, step_eq_stepNext _⟩

/-- The one premise of ReadDataReturnsTheLastCapture, ReadXferReturnsTheStoredWord, WriteXferStoresTheWord and
AcceptanceRule, in IDLE and in a done cycle. -/
theorem witness_AccessesUnderAtomic :
    State.reset.par.busAdapter = .atomic ∧ (busyAt 0 .hold ⟨0, false, true⟩ 0 0 5).par.busAdapter = .atomic := by
  decide

theorem witness_ReadConfigShowsTheLiveStatus :
    ∀ i ∈ [Instr.rdConfig, .rdConfig3], (i = .rdConfig ∨ i = .rdConfig3) ∧ State.reset.par.busAdapter = .atomic := by
  decide

theorem witness_WriteDataQueuesATransferOrStalls :
    (State.reset.par.busAdapter = .atomic ∧ State.reset.pending = false) ∧
    (∃ s : State, s.par.busAdapter = .atomic ∧ s.pending = true ∧ s.done = true) ∧
    (∃ s : State, s.par.busAdapter = .atomic ∧ s.pending = true ∧ s.done = false) :=
  ⟨by decide, ⟨{ busyAt 0 .hold ⟨0, false, true⟩ 0 0 5 with pending := true }, by decide⟩,
    ⟨{ State.reset with pending := true }, by decide⟩⟩

theorem witness_WriteConfigStoresEveryField :
    ∀ i ∈ [Instr.wrConfig 0xFFFFFFFF, .wrConfig3 0xFFFFFFFF],
      (i = .wrConfig 0xFFFFFFFF ∨ i = .wrConfig3 0xFFFFFFFF) ∧ State.reset.par.busAdapter = .atomic := by
  decide

theorem witness_ReadsAndStallsHaveNoEffect :
    (State.reset.par.busAdapter = .atomic ∧ Instr.rdXfer.we = false) ∧
    (got (exec (.wrData 1) { State.reset with pending := true })).map (fun t => (t.par.busAdapter, t.out.ack)) =
      some (.atomic, false) := by decide

theorem witness_ConfigReadsBackAsWritten :
    State.reset.par.busAdapter = .atomic ∧ ∀ k ∈ [0, 1, 2, 3, 7, 16, 31], k < 8 ∨ (16 ≤ k ∧ k < 32) := by decide

/-- No transfer pending, outside and in a done cycle, and a done cycle with one pending. -/
theorem witness_DataReadIsIndependentOfDataWrite :
    (State.reset.par.busAdapter = .atomic ∧ State.reset.pending = false ∧ State.reset.done = false) ∧
    (∃ s : State, s.par.busAdapter = .atomic ∧ s.pending = false ∧ s.done = true) ∧
    (∃ s : State, s.par.busAdapter = .atomic ∧ s.pending = true ∧ s.done = true) :=
  ⟨by decide, ⟨busyAt 0 .hold ⟨0, false, true⟩ 0 0 5, by decide⟩,
    ⟨{ busyAt 0 .hold ⟨0, false, true⟩ 0 0 5 with pending := true }, by decide⟩⟩

/-- Under ATOMIC, and under the adapter with the acknowledge down and up. -/
theorem witness_CycleWithoutAccess :
    ∀ s ∈ [idleAt 0 0 0, adapterAt false, adapterAt true], s.pinIn.rst = false ∧ s.request = none := by decide

/-- For AdapterRegistersTheAnswer and AdapterCommitsInTheAcknowledgeCycle: before and in the acknowledge cycle, for a
read and a write. -/
theorem witness_AdapterStatements :
    ((adapterAt false).par.busAdapter = .wbRegistered ∧ (adapterAt false).wb.ack = false) ∧
    ((adapterAt true).par.busAdapter = .wbRegistered ∧ (adapterAt true).wb.ack = true) ∧
    Instr.rdConfig.we = false ∧ (Instr.wrData 0).we = true := by decide

theorem witness_DroppedRequestSetsTheBusFault :
    (∃ s t : State, s.pinIn.rst = false ∧ step s = .next t ∧
      s.par.busAdapter = .wbRegistered ∧ s.wb.ack = true ∧ s.request = none) ∧
    (∃ s t : State, s.pinIn.rst = false ∧ step s = .next t ∧ s.start = true ∧
      s.xferWriteLength.toNat + s.xferReadLength.toNat > 32) ∧
    (∃ s t : State, s.pinIn.rst = false ∧ step s = .next t ∧ s.par.busAdapter = .atomic ∧ s.request = none) :=
  ⟨⟨adapterAt true, _, by decide, step_eq_stepNext _, by decide⟩,
    ⟨{ idleAt 0 0x01200001 0 with pending := true }, _, by decide, step_eq_stepNext _, by decide⟩,
    ⟨idleAt 0 0 0, _, by decide, step_eq_stepNext _, by decide⟩⟩

/-- Countdown, extension and edge (R133, R134, R135), each at the value next to its neighbour's range. -/
theorem witness_ClockGeneratorMoves :
    (∃ s t : State, s.pinIn.rst = false ∧ step s = .next t ∧ s.cgCe = true ∧ s.cg.cnt = 1) ∧
    (∃ s t : State, s.pinIn.rst = false ∧ step s = .next t ∧ s.cgCe = true ∧ s.cg.cnt = 0 ∧ s.cg.bias = true) ∧
    (∃ s t : State, s.pinIn.rst = false ∧ step s = .next t ∧ s.cgCe = true ∧ s.edge = true) :=
  ⟨⟨busyAt 0 .setup ⟨1, false, false⟩ 1 0 0, _, by decide, step_eq_stepNext _, by decide⟩,
    ⟨busyAt 0 .setup ⟨0, true, false⟩ 1 0 0, _, by decide, step_eq_stepNext _, by decide⟩,
    ⟨busyAt 0 .setup ⟨0, false, false⟩ 1 0 0, _, by decide, step_eq_stepNext _, by decide⟩⟩

theorem witness_ClockIsFrozenWhileIdle :
    (∃ s t : State, s.pinIn.rst = false ∧ step s = .next t ∧ s.cgCe = false ∧ s.fsm = .idle ∧ s.start = false) ∧
    (∃ s t : State, s.pinIn.rst = false ∧ step s = .next t ∧ s.cgCe = true ∧ s.fsm = .idle ∧ s.start = false) :=
  ⟨⟨idleAt 0 0 0, _, by decide, step_eq_stepNext _, by decide⟩,
    ⟨{ idleAt 0 0 0 with cg := ⟨1, false, true⟩ }, _, by decide, step_eq_stepNext _, by decide⟩⟩

/-- Write bits left, no bit left, and read bits only. -/
theorem witness_DivisorFollowsTheCounters :
    ∀ n ∈ [((1 : Count), (1 : Count)), (0, 0), (0, 1)],
      ∃ s t : State, s.pinIn.rst = false ∧ step s = .next t ∧ s.edge = true ∧ s.cgCe = true ∧
        s.nWrite = n.1 ∧ s.nRead = n.2 :=
  fun n _ => ⟨busyAt 0x05030000 .hold ⟨0, false, true⟩ n.1 n.2 0, _, rfl, step_eq_stepNext _, rfl,
    by simp [State.cgCe, State.cs, busyAt], rfl, rfl⟩

/-- No edge, and an edge in each sequencer state. -/
theorem witness_SequencerFollowsItsTable :
    (∃ s t : State, s.pinIn.rst = false ∧ step s = .next t ∧ s.edge = false) ∧
    ∀ f : Fsm, ∃ s t : State, s.pinIn.rst = false ∧ step s = .next t ∧ s.edge = true ∧ s.fsm = f :=
  ⟨⟨busyAt 0 .setup ⟨1, false, true⟩ 1 0 0, _, by decide, step_eq_stepNext _, by decide⟩,
    fun f => ⟨busyAt 0 f ⟨0, false, true⟩ 1 0 0, _, rfl, step_eq_stepNext _, rfl, rfl⟩⟩

/-- For WriteEchoChangesAtShiftEdgesOnly and ShiftMovesTowardTheOutput: shift edges with and without a write bit left,
and a cycle without an edge. -/
theorem witness_ShiftEdges :
    (∃ s t : State, s.pinIn.rst = false ∧ step s = .next t ∧ s.edge = true ∧ s.fsm = .hold ∧ s.bdone = false ∧
      s.nWrite = 1 ∧ s.cfg.lsbFirst = false) ∧
    (∃ s t : State, s.pinIn.rst = false ∧ step s = .next t ∧ s.edge = true ∧ s.fsm = .hold ∧ s.bdone = false ∧
      s.nWrite = 0 ∧ s.cfg.lsbFirst = true) ∧
    (∃ s t : State, s.pinIn.rst = false ∧ step s = .next t ∧ s.edge = false ∧ s.start = false) :=
  ⟨⟨busyAt 0 .hold ⟨0, false, true⟩ 1 0 0, _, by decide, step_eq_stepNext _, by decide⟩,
    ⟨busyAt 0x40 .hold ⟨0, false, true⟩ 0 1 0, _, by decide, step_eq_stepNext _, by decide⟩,
    ⟨busyAt 0 .hold ⟨1, false, true⟩ 0 1 0, _, by decide, step_eq_stepNext _, by decide⟩⟩

theorem witness_SampleFillsTheVacatedPosition :
    (∃ s t : State, s.pinIn.rst = false ∧ step s = .next t ∧ s.edge = true ∧ s.fsm = .setup ∧
      s.cfg.lsbFirst = false) ∧
    (∃ s t : State, s.pinIn.rst = false ∧ step s = .next t ∧ s.edge = true ∧ s.fsm = .setup ∧
      s.cfg.lsbFirst = true) :=
  ⟨⟨busyAt 0 .setup ⟨0, false, true⟩ 1 0 0, _, by decide, step_eq_stepNext _, by decide⟩,
    ⟨busyAt 0x40 .setup ⟨0, false, true⟩ 1 0 0, _, by decide, step_eq_stepNext _, by decide⟩⟩

/-- Counted edges with write bits, with read bits only and with none, at the largest and the smallest counts. -/
theorem witness_WriteBitsAreCountedBeforeReadBits :
    ∀ n ∈ [((63 : Count), (63 : Count)), (1, 0), (0, 1), (0, 0)],
      ∃ s t : State, s.pinIn.rst = false ∧ step s = .next t ∧ countEdge s ∧ s.nWrite = n.1 ∧ s.nRead = n.2 :=
  fun n _ => ⟨busyAt 0 .setup ⟨0, false, true⟩ n.1 n.2 0, _, rfl, step_eq_stepNext _, ⟨rfl, .inl ⟨rfl, rfl⟩⟩, rfl, rfl⟩

/-- A start from IDLE with lengths summing to 33, a chaining start, and a start in the cycle of a stalled `data`
write. -/
theorem witness_StartHandsThePendingTransferOver :
    (∃ s t : State, s.pinIn.rst = false ∧ step s = .next t ∧ s.start = true ∧
      (¬ ∃ w, s.presented = some (.wrData w) ∧ t.out.ack = true) ∧ s.xferWriteLength.toNat + s.xferReadLength.toNat = 33) ∧
    (∃ s t : State, s.pinIn.rst = false ∧ step s = .next t ∧ s.start = true ∧ s.done = true ∧
      (¬ ∃ w, s.presented = some (.wrData w) ∧ t.out.ack = true)) ∧
    (∃ s t : State, s.pinIn.rst = false ∧ step s = .next t ∧ s.start = true ∧ s.presented = some (.wrData 7) ∧
      t.out.ack = false) :=
  ⟨⟨{ idleAt 0 0x01200001 0 with pending := true }, _, by decide, step_eq_stepNext _, by decide,
      by rintro ⟨w, ⟨⟩, -⟩, by decide⟩,
    ⟨{ busyAt 0 .hold ⟨0, false, true⟩ 0 0 5 with pending := true }, _, by decide, step_eq_stepNext _, by decide,
      by decide, by rintro ⟨w, ⟨⟩, -⟩⟩,
    ⟨{ idleAt 0 0x00010001 0 with pending := true, host := [lineOf (.wrData 7)] }, _, by decide,
      step_eq_stepNext _, by decide, by decide⟩⟩

/-- RF-9 cycle 36: no access in the cycle, and a `data` write that stalls in it. -/
theorem witness_LiteralStartLosesTheTransfer :
    (∃ s t : State, s.par.startRequiresEdge = false ∧ s.pinIn.rst = false ∧ step s = .next t ∧ s.fsm = .idle ∧
      s.edge = false ∧ s.pending = true ∧ s.request = none ∧
      ¬ ∃ w, s.presented = some (.wrData w) ∧ t.out.ack = true) ∧
    (∃ s t : State, s.par.startRequiresEdge = false ∧ s.pinIn.rst = false ∧ step s = .next t ∧ s.fsm = .idle ∧
      s.edge = false ∧ s.pending = true ∧ s.presented = some (.wrData 7) ∧ t.out.ack = false) :=
  ⟨⟨{ idleAt 0x000A0000 0x00020001 0x40000000 with
      par := { Params.default with startRequiresEdge := false }, cg := ⟨4, false, true⟩, pending := true },
    _, by decide, by decide, step_eq_stepNext _, by decide, by decide, by decide, by decide,
      by rintro ⟨w, ⟨⟩, -⟩⟩,
    ⟨{ idleAt 0x000A0000 0x00020001 0x40000000 with
      par := { Params.default with startRequiresEdge := false }, cg := ⟨4, false, true⟩, pending := true,
      host := [lineOf (.wrData 7)] },
    _, by decide, by decide, step_eq_stepNext _, by decide⟩⟩

theorem witness_DoneCapturesTheShiftRegister :
    (∃ s t : State, s.pinIn.rst = false ∧ step s = .next t ∧ s.done = true ∧ s.start = true ∧
      (¬ ∃ w, s.presented = some (.wrData w) ∧ t.out.ack = true)) ∧
    (∃ s t : State, s.pinIn.rst = false ∧ step s = .next t ∧ s.done = false) :=
  ⟨⟨{ busyAt 0 .hold ⟨0, false, true⟩ 0 0 5 with pending := true }, _, by decide, step_eq_stepNext _, by decide,
      by decide, by rintro ⟨w, ⟨⟩, -⟩⟩,
    ⟨busyAt 0 .hold ⟨0, false, true⟩ 1 0 5, _, by decide, step_eq_stepNext _, by decide⟩⟩

theorem witness_ChainedDataWriteKeepsPending :
    ∃ s : State, s.par.busAdapter = .atomic ∧ s.done = true ∧ s.pending = true :=
  ⟨{ busyAt 0 .hold ⟨0, false, true⟩ 0 0 5 with pending := true }, by decide⟩

theorem witness_PinsFollowTheState :
    ∃ s t : State, step s = .next t ∧ 1 < s.par.nCsPins :=
  ⟨State.reset, _, step_eq_stepNext _, by decide⟩

theorem witness_ResetCycleRestoresTheResetState :
    ∃ s : State, s.pinIn.rst = true ∧ s.fsm = .hold :=
  ⟨{ busyAt 0 .hold ⟨0, false, true⟩ 0 0 5 with pins := [inReset] }, by decide⟩

theorem witness_InvHoldsAtReset :
    ({ Params.default with nCsPins := 1 } : Params).wellFormed = true ∧
    ({ Params.default with nCsPins := 16 } : Params).wellFormed = true := by decide

/-- The invariant holds in the middle of a transfer, with the countdown at its largest value. -/
theorem witness_EveryStepKeepsInv : ∃ s t : State, Inv s ∧ step s = .next t ∧ s.fsm = .hold :=
  ⟨busyAt 0 .hold ⟨127, true, true⟩ 1 1 0, _,
    ⟨by decide, by decide, by decide, by decide⟩, step_eq_stepNext _, rfl⟩

/-- In each sequencer state, with the level `cg.clk` has there, for `clk_phase = 1` (WAIT with bits left). -/
theorem witness_EveryStepKeepsTheClockParity :
    ∀ fc ∈ [(Fsm.idle, true), (.setup, true), (.hold, false), (.wait, false)],
      ∃ s t : State, ClockParity s ∧ step s = .next t ∧
        (t.cfg.clkPhase = s.cfg.clkPhase ∨ t.fsm = .idle) ∧ s.fsm = fc.1 ∧ s.cg.clk = fc.2 := by
  intro fc h
  simp only [List.mem_cons, List.not_mem_nil, or_false] at h
  obtain rfl | rfl | rfl | rfl := h
  · exact ⟨busyAt 0x20 .idle ⟨0, false, true⟩ 0 0 0, _, ⟨by decide, by decide, by decide, by decide, by decide⟩,
      step_eq_stepNext _, by decide, rfl, rfl⟩
  · exact ⟨busyAt 0x20 .setup ⟨0, false, true⟩ 1 0 0, _, ⟨by decide, by decide, by decide, by decide, by decide⟩,
      step_eq_stepNext _, by decide, rfl, rfl⟩
  · exact ⟨busyAt 0x20 .hold ⟨0, false, false⟩ 0 0 0, _, ⟨by decide, by decide, by decide, by decide, by decide⟩,
      step_eq_stepNext _, by decide, rfl, rfl⟩
  · exact ⟨busyAt 0x20 .wait ⟨0, false, false⟩ 1 0 0, _, ⟨by decide, by decide, by decide, by decide, by decide⟩,
      step_eq_stepNext _, by decide, rfl, rfl⟩

/-- `cs` rises at a start and falls at the end of HOLD (CPHA = 1). -/
theorem witness_ClockPinIsQuietWhenChipSelectChanges :
    (∃ s t : State, ClockParity s ∧ s.pinIn.rst = false ∧ step s = .next t ∧
      t.cfg.clkPolarity = s.cfg.clkPolarity ∧ t.cs ≠ s.cs ∧ s.cs = false) ∧
    (∃ s t : State, ClockParity s ∧ s.pinIn.rst = false ∧ step s = .next t ∧
      t.cfg.clkPolarity = s.cfg.clkPolarity ∧ t.cs ≠ s.cs ∧ s.cs = true) :=
  ⟨⟨{ idleAt 0 0x00010001 0 with pending := true }, _, ⟨by decide, by decide, by decide, by decide, by decide⟩,
      by decide, step_eq_stepNext _, by decide⟩,
    ⟨busyAt 0x20 .hold ⟨0, false, false⟩ 0 0 0, _, ⟨by decide, by decide, by decide, by decide, by decide⟩,
      by decide, step_eq_stepNext _, by decide⟩⟩

/-- A pending transfer that starts, one that waits, a transfer that ends, and an accepted `data` write under
either adapter. -/
theorem witness_PendingTransferIsNeverLost :
    (∃ s t : State, s.par.startRequiresEdge = true ∧ s.pinIn.rst = false ∧ step s = .next t ∧
      s.pending = true ∧ s.start = true) ∧
    (∃ s t : State, s.par.startRequiresEdge = true ∧ s.pinIn.rst = false ∧ step s = .next t ∧
      s.pending = true ∧ s.start = false) ∧
    (∃ s t : State, s.par.startRequiresEdge = true ∧ s.pinIn.rst = false ∧ step s = .next t ∧
      s.cs = true ∧ t.cs = false) ∧
    (∃ s t : State, s.par.startRequiresEdge = true ∧ s.pinIn.rst = false ∧ step s = .next t ∧
      s.presented = some (.wrData 7) ∧ t.out.ack = true ∧ s.par.busAdapter = .atomic) ∧
    (∃ s t : State, s.par.startRequiresEdge = true ∧ s.pinIn.rst = false ∧ step s = .next t ∧
      s.presented = some (.wrData 7) ∧ t.out.ack = true ∧ s.par.busAdapter = .wbRegistered) :=
  ⟨⟨{ idleAt 0 0x00010001 0 with pending := true }, _, by decide, by decide, step_eq_stepNext _, by decide⟩,
    ⟨{ idleAt 0 0x00010001 0 with pending := true, cg := ⟨1, false, true⟩ }, _, by decide, by decide,
      step_eq_stepNext _, by decide⟩,
    ⟨busyAt 0 .wait ⟨0, false, false⟩ 0 0 0, _, by decide, by decide, step_eq_stepNext _, by decide⟩,
    ⟨{ idleAt 0 0 0 with host := [lineOf (.wrData 7)] }, _, by decide, by decide, step_eq_stepNext _, by decide⟩,
    ⟨{ adapterAt true with host := [lineOf (.wrData 7)] }, _, by decide, by decide, step_eq_stepNext _, by decide⟩⟩

theorem witness_MosiIsReleasedForTheReadPhase :
    ∃ s t : State, s.pinIn.rst = false ∧ step s = .next t ∧ s.edge = true ∧ s.fsm = .hold ∧ s.nWrite = 0 ∧
      s.nRead ≠ 0 ∧ t.cfg.halfDuplex = true :=
  ⟨{ busyAt 0x80 .hold ⟨0, false, true⟩ 0 1 0 with write0 := true }, _, by decide, step_eq_stepNext _, by decide⟩

/-- An access of each of the two kinds: one that leaves `offline` alone, and a `config` write. -/
theorem witness_OfflineGatesOnlyThePins :
    State.reset.par.busAdapter = .atomic ∧ Instr.rdConfig.we = false ∧ (Instr.wrXfer 0).idx.toNat < 2 ∧
    ((Instr.wrConfig 0).we = true ∧ 2 ≤ (Instr.wrConfig 0).idx.toNat) := by decide

/-- A generator at an edge; with load 255 the half-period has cycles before its end. -/
theorem witness_HalfPeriodLength :
    (⟨0, false, true⟩ : ClockGen).edge = true ∧ 0 < (255 : Div).toNat / 2 := by decide

theorem witness_ClockPeriodIsLoadPlusTwo :
    (⟨0, false, true⟩ : ClockGen).edge = true ∧ (0 < 1 ∧ 1 < (0 : Div).toNat + 2) := by decide

/-- One sampled bit and thirty-two, at bit 0 and at bit 31. -/
theorem witness_CapturedValueOfATransfer :
    (1 ≤ [true].length ∧ [true].length ≤ 32 ∧ 0 < 32) ∧
    (1 ≤ (List.replicate 32 true).length ∧ (List.replicate 32 true).length ≤ 32 ∧ 31 < 32) := by decide

/-- One bit sampled before, thirty, and thirty-one. -/
theorem witness_WireBitsOfATransfer :
    (1 ≤ [true].length ∧ [true].length ≤ 30) ∧
    (1 ≤ (List.replicate 30 true).length ∧ (List.replicate 30 true).length ≤ 30) ∧
    (List.replicate 31 true).length = 31 := by decide

/-- A transfer pending while the longest countdown, with its extension, runs out. -/
theorem witness_PendingTransferStartsInTime :
    ∃ s : State, s.par.startRequiresEdge = true ∧ s.fsm = .idle ∧ s.pending = true ∧
      s.resetFree (s.cg.cnt.toNat + s.cg.bias.toNat) ∧ s.cg.cnt.toNat = 127 ∧ s.cg.bias = true :=
  ⟨{ State.reset with pending := true, cg := ⟨127, true, true⟩ }, rfl, rfl, rfl, resetFree_of_no_pins rfl _, rfl, rfl⟩

theorem witness_EveryTransferEnds :
    ∃ s : State, Inv s ∧ s.resetFree (2 * (s.nWrite.toNat + s.nRead.toNat + 2) * 129) ∧ s.fsm = .setup :=
  ⟨{ State.reset with fsm := .setup, nWrite := 63, nRead := 63, cg := ⟨127, true, true⟩ },
    ⟨by decide, by decide, by decide, by decide⟩, resetFree_of_no_pins rfl _, rfl⟩

/-- A zero-length transfer (`clk_phase = 0`) that is over after four cycles, its done pulse in the third (P4). -/
theorem witness_PolledTransferHasCompleted :
    ∃ (s : State) (k : Nat), s.par.startRequiresEdge = true ∧ s.pending = true ∧ s.resetFree k ∧
      (s.after k).cs = false ∧ (s.after k).pending = false ∧ (s.after k).noFault ∧
      (2 < k ∧ (s.after 2).done = true ∧ ∀ l, 2 < l → l < k → (s.after l).done = false) :=
  ⟨{ State.reset with pending := true }, 4, rfl, rfl, resetFree_of_no_pins rfl _, by decide, by decide,
    ⟨by decide, by decide⟩, by decide, by decide, fun l h1 h2 => by
      obtain rfl : l = 3 := by omega
      decide⟩

/-- A one-bit transfer with the fastest clock: the done pulse comes two cycles after the start edge. -/
theorem witness_TransferShiftsOutAndSamplesEveryBit :
    ∃ (s : State) (m : Nat), s.par.bitcountEnable = .sample ∧ s.start = true ∧ s.edge = true ∧
      1 ≤ s.xferWriteLength.toNat + s.xferReadLength.toNat ∧
      0 < m ∧ (s.after m).done = true ∧ (∀ j, 0 < j → j < m → (s.after j).done = false) ∧
      s.resetFree m ∧ (s.after m).noFault ∧
      (∀ j, 0 < j → j ≤ m → (s.after j).cfg.lsbFirst = s.cfg.lsbFirst) :=
  ⟨{ State.reset with pending := true, xferRaw := 0x00010001 }, 2, rfl, by decide, by decide, by decide, by decide,
    by decide, fun j h1 h2 => by
      obtain rfl : j = 1 := by omega
      decide,
    resetFree_of_no_pins rfl _, ⟨by decide, by decide⟩, fun j h1 h2 => by
      obtain rfl | rfl : j = 1 ∨ j = 2 := by omega
      · decide
      · decide⟩

/-- A one-bit transfer whose serial input, listed for its sample cycle, is the output bit 1. -/
theorem witness_LoopbackTransferObeysThePeriodicityLaw :
    ∃ (s : State) (m : Nat), s.par.bitcountEnable = .sample ∧ s.start = true ∧ s.edge = true ∧
      1 ≤ s.xferWriteLength.toNat + s.xferReadLength.toNat ∧
      0 < m ∧ (s.after m).done = true ∧ (∀ j, 0 < j → j < m → (s.after j).done = false) ∧
      s.resetFree m ∧ (s.after m).noFault ∧
      (∀ j, 0 < j → j ≤ m → (s.after j).cfg.lsbFirst = s.cfg.lsbFirst) ∧
      (∀ j, 0 < j → j < m → (s.after j).edge = true → (s.after j).fsm = .setup →
        sampledInput (s.after j) = (s.after j).o) ∧
      (s.after 1).edge = true ∧ (s.after 1).fsm = .setup :=
  ⟨{ idleAt 0 0x00010001 0x80000000 with pending := true }, 2, rfl, by decide, by decide, by decide, by decide,
    by decide, fun j h1 h2 => by
      obtain rfl : j = 1 := by omega
      decide,
    fun j h => by
      obtain rfl | rfl : j = 0 ∨ j = 1 := by omega
      · decide
      · decide,
    ⟨by decide, by decide⟩, fun j h1 h2 => by
      obtain rfl | rfl : j = 1 ∨ j = 2 := by omega
      · decide
      · decide,
    fun j h1 h2 _ _ => by
      obtain rfl : j = 1 := by omega
      decide,
    by decide, by decide⟩

/-- Two states that do differ in `offline`, in the middle of a transfer, under either adapter. -/
theorem witness_OfflineIsInvisibleToTheRun :
    ∀ s ∈ [busyAt 0 .hold ⟨0, false, true⟩ 0 0 5, adapterAt true],
      ∃ u t v : State, DifferInOffline s u ∧ step s = .next t ∧ step u = .next v ∧ u.cfg.offline ≠ s.cfg.offline :=
  fun s _ => ⟨withOffline (!s.cfg.offline) s, _, _, differInOffline_withOffline _ s,
    step_eq_stepNext _, step_eq_stepNext _, by simp⟩

end Sys2Proof.Tests
end

section
/-! What every step without reset does to the components (R293), whatever access it holds, and the ClockGenerator's
own statement (spec/40_clock_generator.md). -/

namespace Sys2Proof.Machine

/-- Every step without reset makes the moves of R293: a host write touches no component. -/
theorem coreMoved_of_step {s t : State} (hr : s.pinIn.rst = false) (h : step s = .next t) : CoreMoved s t := by
  obtain ⟨hr', -⟩ | ⟨-, u, rfl, hu⟩ := step_next_cases h
  · simp [hr] at hr'
  · exact (coreMoved_coreNext s).congr (advance_coreFields hu.core)

/-- Settles O25: the ClockGenerator's part of the moves every step makes. An edge is the case with the countdown at 0
and no extension pending, and the reload's shift by one halves the load (R135). -/
theorem clockGeneratorMoves : Obligations.ClockGeneratorMoves := by
  intro s t hr h
  obtain ⟨⟨-, hcount, hextend, hreload⟩, -⟩ := coreMoved_of_step hr h
  refine ⟨edge_iff s, hcount, hextend, fun hce he => ?_⟩
  obtain ⟨hc, hb⟩ := (edge_iff s).1 he
  rw [hreload hce hc hb]
  refine ⟨?_, rfl, rfl⟩
  rw [BitVec.toNat_ushiftRight, Nat.shiftRight_eq_div_pow, pow_one]

end Sys2Proof.Machine
end

section
/-! The shift register's own statements (spec/41_shift_register.md). -/

namespace Sys2Proof.Machine

/-- The sampled input pin by cases (R273): `miso` only in full duplex with that pin present. -/
theorem sampledInput_eq (s : State) :
    sampledInput s = if s.cfg.halfDuplex then s.pinIn.mosiIn
      else if s.par.hasMiso then s.pinIn.miso else s.pinIn.mosiIn := by
  unfold sampledInput
  cases s.cfg.halfDuplex <;> cases s.par.hasMiso <;> rfl

/-- Settles O30: the sample clause of the register's move, read at the vacated end and away from it under each bit
order. -/
theorem sampleFillsTheVacatedPosition : Obligations.SampleFillsTheVacatedPosition := by
  intro s t hr h he hf
  obtain ⟨-, -, ⟨-, -, hsample, -⟩, -⟩ := coreMoved_of_step hr h
  have hbit := hsample he hf
  refine ⟨fun hmsb => ?_, fun hlsb => ?_, sampledInput_eq s⟩
  · simp only [hmsb, Bool.false_eq_true, if_false] at hbit
    exact ⟨hbit 0 (by decide), fun k hpos hk => (hbit k hk).trans (if_neg hpos.ne')⟩
  · simp only [hlsb, if_true] at hbit
    exact ⟨hbit 31 (by decide), fun k hk => (hbit k (by omega)).trans (if_neg hk.ne)⟩

end Sys2Proof.Machine
end

section
/-! The bit counter's own statement (spec/42_bit_counter.md). -/

namespace Sys2Proof.Machine

/-- Counting down from a count other than 0 does not wrap. -/
theorem toNat_sub_one_add_one_of_ne_zero {c : Count} (h : c ≠ 0) : (c - 1).toNat + 1 = c.toNat := by
  bv_omega

/-- Settles O32: the counting clauses of the counter's move; a counter counts down only from a count other than 0, and
a counted cycle with both at 0 is no start, so it keeps them. -/
theorem writeBitsAreCountedBeforeReadBits : Obligations.WriteBitsAreCountedBeforeReadBits := by
  intro s t hr h hc
  obtain ⟨-, -, -, ⟨-, hwrite, hread, hkeep⟩, -⟩ := coreMoved_of_step hr h
  refine ⟨fun hw => ?_, fun hw hn => ?_, fun hw hn => ?_⟩
  · obtain ⟨hw', hn'⟩ := hwrite hc hw
    exact ⟨hw' ▸ toNat_sub_one_add_one_of_ne_zero hw, hn'⟩
  · obtain ⟨hw', hn'⟩ := hread hc hw hn
    exact ⟨hw', hn' ▸ toNat_sub_one_add_one_of_ne_zero hn⟩
  · obtain ⟨hw', hn'⟩ := hkeep (not_start_of_countEdge hc) (.inr ⟨hw, hn⟩)
    exact ⟨hw'.trans hw, hn'.trans hn⟩

end Sys2Proof.Machine
end

section
/-! The sequencer's own statements (spec/43_sequencer.md). -/

namespace Sys2Proof.Machine

theorem bw_iff (s : State) : s.bw = true ↔ s.nWrite ≠ 0 := by
  simp [State.bw]

theorem oe_iff (s : State) : s.oe = true ↔ s.write0 = true ∨ s.nWrite ≠ 0 := by
  rw [State.oe, Bool.or_eq_true, bw_iff]

/-- Settles O28: the sequencer's move, read in each state. IDLE branches on start; HOLD ends a transfer exactly when no
bit is left and no start chains the next one. -/
theorem sequencerFollowsItsTable : Obligations.SequencerFollowsItsTable := by
  intro s t hr h
  obtain ⟨-, ⟨hnoedge, hidle, hstart, hsetup, hend, hgo, hwait, -⟩, -⟩ := coreMoved_of_step hr h
  refine ⟨hnoedge, fun he => ⟨fun hf => ?_, hsetup he, fun hf => ?_, hwait he⟩⟩
  · split
    next hs => exact hstart he hf hs
    next hs => exact hidle he hf (Bool.eq_false_of_not_eq_true hs)
  · split
    next hlast =>
      obtain ⟨hb, hs⟩ := hlast
      exact hend he hf hb hs
    next hmore =>
      rw [Decidable.not_and_iff_or_not, Bool.not_eq_true, Bool.not_eq_false] at hmore
      exact hgo he hf hmore

/-- Settles O29: the echo's move. A HOLD edge with bits left is always a shift edge, since no start comes with bits
left; `oe` is read off the next state. -/
theorem writeEchoChangesAtShiftEdgesOnly : Obligations.WriteEchoChangesAtShiftEdgesOnly := by
  intro s t hr h
  obtain ⟨-, ⟨-, -, -, -, -, -, -, hecho⟩, -⟩ := coreMoved_of_step hr h
  refine ⟨fun he hf hb => ?_, fun hkeep => ?_, oe_iff t⟩
  · rw [hecho, if_pos ⟨he, hf, hb, not_start_of_bits hf hb⟩]
    exact bw_iff s
  · refine hecho.trans (if_neg ?_)
    rintro ⟨he, hf, hb, -⟩
    simp [he, hf, hb] at hkeep

end Sys2Proof.Machine
end

section
/-! The register file's own statements (spec/44_register_file.md): the acceptance rule, the hand-over at start and the
capture at done. -/

namespace Sys2Proof.Machine

/-! ## The acknowledge -/

/-- Before its commit, a write's cycle acknowledges exactly when it commits (R231, R247). -/
theorem writeBase_ack (ready : Bool) (registered : Word) (s : State) :
    (writeBase ready registered s).out.ack = writeCommits ready s := by
  unfold writeBase writeCommits
  cases s.par.busAdapter <;> rfl

/-- A commit that leaves the outputs alone leaves the acknowledge alone. -/
theorem writeCycle_ack {commit : State → State} (hc : ∀ n, (commit n).out = n.out) (ready : Bool)
    (registered : Word) (s : State) :
    (writeCycle ready registered commit s).out.ack = writeCommits ready s := by
  rw [writeCycle_eq, ← writeBase_ack ready registered]
  split
  · rw [hc]
  · rfl

theorem writeCommits_of_atomic {s : State} (h : s.par.busAdapter = .atomic) (ready : Bool) :
    writeCommits ready s = ready := by
  simp [writeCommits, h]

theorem readCycle_ack_of_atomic {s : State} (h : s.par.busAdapter = .atomic) (live registered : Word) :
    (readCycle live registered s).out.ack = true := by
  obtain ⟨-, -, -, -, -, -, -, hatomic, -⟩ := readCycle_spec live registered s
  obtain ⟨-, hout⟩ := hatomic h
  simp [hout, State.outputs]

theorem dataReady_iff (s : State) : s.dataReady = true ↔ s.pending = false ∨ s.done = true := by
  simp [State.dataReady]

/-- Settles O16: a read and a write of another index are acknowledged at once; a `data` write when it is ready. -/
theorem acceptanceRule : Obligations.AcceptanceRule := by
  intro i s ha
  have hread := readCycle_ack_of_atomic ha
  have hwrite {commit : State → State} (hc : ∀ n, (commit n).out = n.out) (ready : Bool) (registered : Word) :
      (writeCycle ready registered commit s).out.ack = ready :=
    (writeCycle_ack hc ready registered s).trans (writeCommits_of_atomic ha ready)
  cases i with
  | rdData => exact ⟨_, rfl, by simp [hread, Instr.we]⟩
  | rdXfer => exact ⟨_, rfl, by simp [hread, Instr.we]⟩
  | rdConfig => exact ⟨_, rfl, by simp [hread, Instr.we]⟩
  | rdConfig3 => exact ⟨_, rfl, by simp [hread, Instr.we]⟩
  | wrData w =>
    refine ⟨_, rfl, ?_⟩
    rw [hwrite (writeData_out w), dataReady_iff]
    simp [Instr.we, Instr.idx]
  | wrXfer w => exact ⟨_, rfl, by simp [hwrite (writeXfer_out w), Instr.idx]⟩
  | wrConfig w => exact ⟨_, rfl, by simp [hwrite (writeConfig_out w), Instr.idx]⟩
  | wrConfig3 w => exact ⟨_, rfl, by simp [hwrite (writeConfig_out w), Instr.idx]⟩

/-! ## The write buffer and `pending` -/

/-- What a cycle without an acknowledged `data` write does to the write buffer and to `pending` (R234, R243). -/
structure BufferKept (s u : State) : Prop where
  dataWrite : u.dataWrite = s.dataWrite
  pending : PendingMoved s u

theorem readCycle_bufferKept (live registered : Word) (s : State) :
    BufferKept s (readCycle live registered s) := by
  obtain ⟨-, -, -, -, hd, hp, -⟩ := readCycle_spec live registered s
  exact ⟨hd, hp⟩

theorem idleCycle_bufferKept (s : State) : BufferKept s (idleCycle s) := by
  obtain ⟨-, -, -, -, hd, hp, -⟩ := idleCycle_spec s
  exact ⟨hd, hp⟩

theorem writeBase_bufferKept (ready : Bool) (registered : Word) (s : State) :
    BufferKept s (writeBase ready registered s) := by
  obtain ⟨-, -, -, -, hd, hp, -⟩ := writeBase_spec ready registered s
  exact ⟨hd, hp⟩

/-- A write's cycle keeps them when its commit does, which matters only where it is performed. -/
theorem writeCycle_bufferKept {ready : Bool} {commit : State → State} {s : State} (registered : Word)
    (hc : writeCommits ready s = true → ∀ n, BufferKept s n → BufferKept s (commit n)) :
    BufferKept s (writeCycle ready registered commit s) := by
  have hbase := writeBase_bufferKept ready registered s
  rw [writeCycle_eq]
  split
  next h => exact hc h _ hbase
  next => exact hbase

/-- Only an acknowledged `data` write fills the buffer or sets `pending`, under either adapter. -/
theorem exec_bufferKept {i : Instr} {s u : State} (h : exec i s = .next u)
    (hn : ¬ ∃ w, i = .wrData w ∧ u.out.ack = true) : BufferKept s u := by
  cases i with
  | rdData => cases h; exact readCycle_bufferKept _ _ s
  | rdXfer => cases h; exact readCycle_bufferKept _ _ s
  | rdConfig => cases h; exact readCycle_bufferKept _ _ s
  | rdConfig3 => cases h; exact readCycle_bufferKept _ _ s
  | wrData w =>
    cases h
    refine writeCycle_bufferKept _ fun hcommit => absurd ⟨w, rfl, ?_⟩ hn
    rw [writeCycle_ack (writeData_out w), hcommit]
  | wrXfer w => cases h; exact writeCycle_bufferKept _ fun _ n hk => ⟨hk.dataWrite, hk.pending⟩
  | wrConfig w => cases h; exact writeCycle_bufferKept _ fun _ n hk => ⟨hk.dataWrite, hk.pending⟩
  | wrConfig3 w => cases h; exact writeCycle_bufferKept _ fun _ n hk => ⟨hk.dataWrite, hk.pending⟩

/-- The same for a step without reset: the environment's move touches neither. -/
theorem step_bufferKept {s t : State} (hr : s.pinIn.rst = false) (h : step s = .next t)
    (hn : ¬ ∃ w, s.presented = some (.wrData w) ∧ t.out.ack = true) : BufferKept s t := by
  rw [step, cycle_eq hr] at h
  cases hp : s.presented with
  | none =>
    rw [hp] at h
    cases h
    exact ⟨(idleCycle_bufferKept s).dataWrite, (idleCycle_bufferKept s).pending⟩
  | some i =>
    obtain ⟨u, hu, -⟩ := exec_cases i s
    simp only [hp, hu] at h
    cases h
    have hk : BufferKept s u :=
      exec_bufferKept hu fun ⟨w, hi, hack⟩ => hn ⟨w, by rw [hp, hi], hack⟩
    exact ⟨hk.dataWrite, hk.pending⟩

/-! ## Start and done -/

/-- When a start comes, under either value of START_REQUIRES_EDGE (R240). -/
theorem start_iff (s : State) : s.start = true ↔ s.pending = true ∧
    ((s.fsm = .idle ∧ (s.par.startRequiresEdge = true → s.edge = true)) ∨ s.done = true) := by
  have hcs : s.cs = false ↔ s.fsm = .idle := by simp [State.cs]
  cases hp : s.par.startRequiresEdge <;> simp [State.start, hp, hcs]

/-- Settles O33: the start clauses of the moves every step makes; `pending` is cleared by start unless an acknowledged
`data` write sets it (R243). -/
theorem startHandsThePendingTransferOver : Obligations.StartHandsThePendingTransferOver := by
  intro s t hr h
  obtain ⟨-, -, ⟨hsr, -⟩, ⟨hcount, -⟩, hcsSel, -, hlen⟩ := coreMoved_of_step hr h
  refine ⟨start_iff s, fun hs => ?_⟩
  obtain ⟨hwrite, hread⟩ := hcount hs
  exact ⟨hcsSel.trans (if_pos hs), hwrite, hread, hsr hs,
    fun hn => (step_bufferKept hr h hn).pending.trans (if_pos hs), fun h32 => hlen.2 (.inr ⟨hs, h32⟩)⟩

/-- Settles O35: the capture reads the shift register before the start load, since both are moves from the same state
(R242, R290). -/
theorem doneCapturesTheShiftRegister : Obligations.DoneCapturesTheShiftRegister := by
  intro s t hr h
  obtain ⟨-, -, ⟨hsr, -⟩, -, -, hcapture, -⟩ := coreMoved_of_step hr h
  refine ⟨?_, hcapture, hsr, fun hn => (step_bufferKept hr h hn).dataWrite⟩
  rw [done_iff, bdone_iff, and_assoc]

end Sys2Proof.Machine
end

section
/-! The pins' own statement (spec/45_pins.md): whatever a cycle holds, its outputs are `State.outputs` of the state
before it. -/

namespace Sys2Proof.Machine

/-- The outputs recorded in `u` are those of a cycle from `s`, with some `ack` and `rdat` (R291). -/
def OutputsOf (s u : State) : Prop := ∃ (ack : Bool) (rdat : Word), u.out = s.outputs ack rdat

theorem OutputsOf.pinsShown {s u : State} (h : OutputsOf s u) : PinsShown s u := by
  obtain ⟨ack, rdat, hout⟩ := h
  exact pinsShown_of_outputs hout

theorem readCycle_outputsOf (live registered : Word) (s : State) : OutputsOf s (readCycle live registered s) := by
  obtain ⟨-, -, -, -, -, -, -, hatomic, hadapter⟩ := readCycle_spec live registered s
  cases hb : s.par.busAdapter with
  | atomic => exact ⟨_, _, (hatomic hb).2⟩
  | wbRegistered => exact ⟨_, _, (hadapter hb).2⟩

theorem idleCycle_outputsOf (s : State) : OutputsOf s (idleCycle s) := by
  obtain ⟨-, -, -, -, -, -, hatomic, hadapter⟩ := idleCycle_spec s
  cases hb : s.par.busAdapter with
  | atomic => exact ⟨_, _, (hatomic hb).2.2⟩
  | wbRegistered => exact ⟨_, _, (hadapter hb).2.2⟩

theorem writeBase_outputsOf (ready : Bool) (registered : Word) (s : State) :
    OutputsOf s (writeBase ready registered s) := by
  obtain ⟨-, -, -, -, -, -, -, hatomic, hadapter⟩ := writeBase_spec ready registered s
  cases hb : s.par.busAdapter with
  | atomic => exact ⟨_, _, (hatomic hb).2⟩
  | wbRegistered => exact ⟨_, _, (hadapter hb).2⟩

/-- A commit changes registers only, so the pins of a write's cycle do not depend on whether it is performed. -/
theorem writeCycle_outputsOf {commit : State → State} (hc : ∀ n, (commit n).out = n.out) (ready : Bool)
    (registered : Word) (s : State) : OutputsOf s (writeCycle ready registered commit s) := by
  obtain ⟨ack, rdat, hbase⟩ := writeBase_outputsOf ready registered s
  rw [writeCycle_eq]
  split
  · exact ⟨ack, rdat, (hc _).trans hbase⟩
  · exact ⟨ack, rdat, hbase⟩

theorem exec_outputsOf {i : Instr} {s u : State} (h : exec i s = .next u) : OutputsOf s u := by
  cases i with
  | rdData => cases h; exact readCycle_outputsOf _ _ s
  | rdXfer => cases h; exact readCycle_outputsOf _ _ s
  | rdConfig => cases h; exact readCycle_outputsOf _ _ s
  | rdConfig3 => cases h; exact readCycle_outputsOf _ _ s
  | wrData w => cases h; exact writeCycle_outputsOf (writeData_out w) _ _ s
  | wrXfer w => cases h; exact writeCycle_outputsOf (writeXfer_out w) _ _ s
  | wrConfig w => cases h; exact writeCycle_outputsOf (writeConfig_out w) _ _ s
  | wrConfig3 w => cases h; exact writeCycle_outputsOf (writeConfig_out w) _ _ s

/-- Reset acts on the next state only: the outputs of a reset cycle are still those of the state before it (R350). -/
theorem cycle_outputsOf {s u : State} (h : cycle s = .next u) : OutputsOf s u := by
  cases hr : s.pinIn.rst with
  | true =>
    rw [cycle, if_pos hr] at h
    cases h
    exact ⟨_, _, resetCycle_out s⟩
  | false =>
    rw [cycle_eq hr] at h
    cases hp : s.presented with
    | none =>
      rw [hp] at h
      cases h
      exact idleCycle_outputsOf s
    | some i =>
      rw [hp] at h
      exact exec_outputsOf h

/-- A step's next state is a cycle's, moved on by the environment. -/
theorem exists_cycle_of_step {s t : State} (h : step s = .next t) : ∃ u, cycle s = .next u ∧ t = advance u := by
  rw [step] at h
  cases hc : cycle s with
  | next u =>
    rw [hc] at h
    cases h
    exact ⟨u, rfl, rfl⟩
  | fault r => rw [hc] at h; cases h
  | refused r => rw [hc] at h; cases h

/-- The environment's move leaves the outputs the cycle recorded as they are. -/
theorem step_outputsOf {s t : State} (h : step s = .next t) : OutputsOf s t := by
  obtain ⟨u, hu, rfl⟩ := exists_cycle_of_step h
  obtain ⟨ack, rdat, hout⟩ := cycle_outputsOf hu
  exact ⟨ack, rdat, (advance_out u).trans hout⟩

/-- Settles O37: a step of any kind records the outputs of the state before it, and `State.outputs` gives the pins of
R271, R272 and R274. -/
theorem pinsFollowTheState : Obligations.PinsFollowTheState := by
  intro s t h
  exact (step_outputsOf h).pinsShown

end Sys2Proof.Machine
end

section
/-! The statements about descriptors and the fields of the host registers (spec/30_encoding.md). -/

namespace Sys2Proof

open Machine

/-! ## Descriptors -/

/-- A descriptor is put together from its own fields. -/
theorem descriptorOf_fields (d : Descriptor) : descriptorOf d.we d.idx d.wdat = d := by
  apply BitVec.eq_of_getLsbD_eq
  intro k hk
  simp only [descriptorOf, Descriptor.we, Descriptor.idx, Descriptor.wdat, BitVec.getLsbD_or,
    BitVec.getLsbD_shiftLeft, BitVec.getLsbD_setWidth, BitVec.getLsbD_extractLsb']
  interval_cases k <;> simp

theorem isDescriptor_iff (w : Nat) : isDescriptor w = true ↔ w < 2 ^ 35 := by
  simp [isDescriptor]

/-- A number decodes to an access exactly when it is a descriptor, and to the access that descriptor selects. -/
theorem decode_eq_ok_iff (w : Nat) (i : Instr) :
    decode w = .ok i ↔ isDescriptor w = true ∧ decodeDescriptor (BitVec.ofNat 35 w) = i := by
  by_cases h : isDescriptor w = true <;> simp [decode, h]

theorem decodeTableWord_eq_some_iff (nbits w : Nat) (i : Instr) :
    decodeTableWord nbits w = some i ↔ decode (w % 2 ^ nbits) = .ok i := by
  unfold decodeTableWord
  cases decode (w % 2 ^ nbits) <;> simp

theorem decodeDescriptor_encode (i : Instr) : decodeDescriptor (encode i) = i := by
  cases i <;> simp [decodeDescriptor, encode, Instr.we, Instr.idx, Instr.wdat]

/-- Settles O1: the encoder's descriptor has the access's own fields, and it lies in the decoder's range because it is
35 bits wide. -/
theorem encodeThenDecodeGivesTheAccess : Obligations.EncodeThenDecodeGivesTheAccess := by
  intro i _
  rw [decode_eq_ok_iff, BitVec.ofNat_toNat, BitVec.setWidth_eq]
  exact ⟨(isDescriptor_iff _).2 (encode i).isLt, decodeDescriptor_encode i⟩

/-- The mnemonic depends on `we` and `idx` only (R100, R108). -/
theorem mnemonic_decodeDescriptor (d : Descriptor) :
    (decodeDescriptor d).mnemonic = (decodeDescriptor (descriptorOf d.we d.idx 0)).mnemonic := by
  simp only [decodeDescriptor, descriptorOf_we, descriptorOf_idx]
  split_ifs <;> rfl

/-- The access map, row by row, against the decoder: a row's pattern is the one of its mnemonic's `we` and `idx`. -/
theorem accessMap_rows : ∀ row ∈ accessMap, row.mask = 0x700000000 ∧ ∀ (b : Bool) (x : BitVec 2),
    descriptorOf b x 0 = row.pattern ↔ (decodeDescriptor (descriptorOf b x 0)).mnemonic = row.mnemonic := by
  decide

/-- A write's operand is the descriptor's `wdat` (R100). -/
theorem wdat_decodeDescriptor {d : Descriptor} (h : d.we = true) : (decodeDescriptor d).wdat = d.wdat := by
  simp only [decodeDescriptor, h, if_true]
  split_ifs <;> rfl

/-- Settles O2: masking keeps `we` and `idx`, which alone decide the row and the mnemonic. -/
theorem decoderFollowsTheAccessMap : Obligations.DecoderFollowsTheAccessMap := by
  refine ⟨fun d row hrow => ?_, fun d k hw hk => ?_, fun w => ?_⟩
  · obtain ⟨hmask, hpattern⟩ := accessMap_rows row hrow
    have hfixed : d &&& row.mask = descriptorOf d.we d.idx 0 := by
      rw [hmask, ← Laws.MatchesItsRow.descriptorOf_fixed d.we d.idx d.wdat, descriptorOf_fields]
    rw [hfixed, mnemonic_decodeDescriptor]
    exact hpattern d.we d.idx
  · rw [wdat_decodeDescriptor hw]
    simp [Descriptor.wdat, hk]
  · simp [decode_eq_ok_iff, isDescriptor_iff]

/-- Settles O3: each word is decoded by evaluation. -/
theorem specDescriptorsDecode : Obligations.SpecDescriptorsDecode := by
  unfold Obligations.SpecDescriptorsDecode
  decide

/-- Settles O4: the descriptor takes the address modulo 4. -/
theorem onlyTheLowAddressBitsAreDecoded : Obligations.OnlyTheLowAddressBitsAreDecoded := by
  intro r q hwe hwdat hadr
  have hidx : BitVec.ofNat 2 r.adr = BitVec.ofNat 2 q.adr := by
    simp [← BitVec.toNat_inj, hadr]
  rw [Request.descriptor, Request.descriptor, hwe, hidx, hwdat]

/-! ## Fields of the host registers -/

/-- A field read from where it was placed is the placed value. -/
theorem extractLsb'_placed {n : Nat} (x : BitVec n) {a : Nat} (h : a + n ≤ 32) :
    (x.setWidth 32 <<< a).extractLsb' a n = x := by
  apply BitVec.eq_of_getLsbD_eq
  intro k hk
  have h32 : a + k < 32 := by omega
  simp [hk, h32]

/-- A field read from above another one's place shows nothing of it. -/
theorem extractLsb'_above_placed {n : Nat} (x : BitVec n) {a b : Nat} (m : Nat) (h : a + n ≤ b) :
    (x.setWidth 32 <<< a).extractLsb' b m = 0 := by
  apply BitVec.eq_of_getLsbD_eq
  intro k hk
  have hx : x.getLsbD (b + k - a) = false := BitVec.getLsbD_of_ge x _ (by omega)
  simp [hx]

/-- A field read from below another one's place shows nothing of it. -/
theorem extractLsb'_below_placed {n : Nat} (x : BitVec n) {a b m : Nat} (h : b + m ≤ a) :
    (x.setWidth 32 <<< a).extractLsb' b m = 0 := by
  apply BitVec.eq_of_getLsbD_eq
  intro k hk
  have ha : b + k < a := by omega
  simp [ha]

/-- The three fields of a word put together from them read back, wherever they stand in it, if they do not overlap. -/
theorem extractLsb'_three_placed {p q r : Nat} (x : BitVec p) (y : BitVec q) (z : BitVec r) {a b c : Nat}
    (hab : a + p ≤ b) (hbc : b + q ≤ c) (hc : c + r ≤ 32) :
    (x.setWidth 32 <<< a ||| y.setWidth 32 <<< b ||| z.setWidth 32 <<< c).extractLsb' a p = x ∧
    (x.setWidth 32 <<< a ||| y.setWidth 32 <<< b ||| z.setWidth 32 <<< c).extractLsb' b q = y ∧
    (x.setWidth 32 <<< a ||| y.setWidth 32 <<< b ||| z.setWidth 32 <<< c).extractLsb' c r = z := by
  simp only [BitVec.extractLsb'_or]
  refine ⟨?_, ?_, ?_⟩
  · rw [extractLsb'_placed x (by omega), extractLsb'_below_placed y (by omega),
      extractLsb'_below_placed z (by omega)]
    simp
  · rw [extractLsb'_above_placed x q (by omega), extractLsb'_placed y (by omega),
      extractLsb'_below_placed z (by omega)]
    simp
  · rw [extractLsb'_above_placed x r (by omega), extractLsb'_above_placed y r (by omega),
      extractLsb'_placed z hc]
    simp

/-- `setxfer`'s word holds its three operands under both layouts (R103, R112). -/
theorem xferWord_fields (l : XferLayout) (cs : CsMask) (wl rl : Count) :
    xferCs l (xferWord l cs wl rl) = cs ∧ xferWriteLength l (xferWord l cs wl rl) = wl ∧
      xferReadLength l (xferWord l cs wl rl) = rl := by
  cases l with
  | lsbPacked =>
    have h := extractLsb'_three_placed cs wl rl (a := 0) (b := 16) (c := 24) (by decide) (by decide) (by decide)
    rwa [BitVec.shiftLeft_zero] at h
  | docLiteral =>
    obtain ⟨hrl, hwl, hcs⟩ :=
      extractLsb'_three_placed rl wl cs (a := 2) (b := 10) (c := 16) (by decide) (by decide) (by decide)
    have hword : xferWord .docLiteral cs wl rl =
        rl.setWidth 32 <<< 2 ||| wl.setWidth 32 <<< 10 ||| cs.setWidth 32 <<< 16 := by
      rw [xferWord, BitVec.or_comm, BitVec.or_comm (cs.setWidth 32 <<< 16), BitVec.or_assoc]
    rw [hword]
    exact ⟨hcs, hwl, hrl⟩

/-- The line a `setcfg` presents (R112). -/
theorem setcfg_eq (f : Word) (dw dr : Div) : setcfg f dw dr =
    lineOf (.wrConfig ((f &&& (0xF9 : Word)) ||| dw.setWidth 32 <<< 16 ||| dr.setWidth 32 <<< 24)) :=
  rfl

/-- The flags and divisors a `setcfg` stores; its mask leaves the reserved bits and the live bits 1 and 2 at 0
(R112). -/
theorem ofWord_setcfg (f : Word) (dw dr : Div) :
    Cfg.ofWord ((f &&& (0xF9 : Word)) ||| dw.setWidth 32 <<< 16 ||| dr.setWidth 32 <<< 24) =
      ⟨f.getLsbD 0, f.getLsbD 3, f.getLsbD 4, f.getLsbD 5, f.getLsbD 6, f.getLsbD 7, 0, dw, dr⟩ := by
  have hflags : (f &&& (0xF9 : Word)) = ((f &&& (0xF9 : Word)).setWidth 8).setWidth 32 <<< 0 := by
    rw [BitVec.shiftLeft_zero]
    apply BitVec.eq_of_getLsbD_eq
    intro k hk
    simp only [BitVec.getLsbD_setWidth, BitVec.getLsbD_and]
    interval_cases k <;> simp
  obtain ⟨-, hdw, hdr⟩ := extractLsb'_three_placed ((f &&& (0xF9 : Word)).setWidth 8) dw dr
    (a := 0) (b := 16) (c := 24) (by decide) (by decide) (by decide)
  have hrsv : ((f &&& (0xF9 : Word)) ||| dw.setWidth 32 <<< 16 ||| dr.setWidth 32 <<< 24).extractLsb' 8 8 = 0 := by
    rw [BitVec.extractLsb'_or, BitVec.extractLsb'_or, extractLsb'_below_placed dw (by decide),
      extractLsb'_below_placed dr (by decide), hflags, extractLsb'_above_placed _ 8 (by decide)]
    simp
  rw [← hflags] at hdw hdr
  simp only [Cfg.ofWord, hrsv, hdw, hdr]
  simp

/-- Settles O5: the bit positions are the definitions' own; the round trips hold because no field overlaps another. -/
theorem pseudoOperationsPlaceTheFields : Obligations.PseudoOperationsPlaceTheFields := by
  refine ⟨fun w k => ⟨fun hk => ?_, fun hk => ?_⟩, xferWord_fields, fun f dw dr _ => ⟨_, setcfg_eq f dw dr, ?_⟩⟩
  · simp [xferCs, hk]
  · simp [xferWriteLength, xferReadLength, hk]
  · rw [ofWord_setcfg]
    exact ⟨rfl, rfl, rfl, rfl, rfl, rfl, rfl, rfl, rfl⟩

end Sys2Proof
end

section
/-! What a step, and the run of steps it starts, leaves of the machine; and the statements about the step itself
(spec/46_cycle_step.md, spec/30_encoding.md section 4). -/

namespace Sys2Proof.Machine

/-! ## The access a step runs -/

/-- A step without reset runs the access presented, and the environment moves on (R291, R297). -/
theorem step_of_presented {s : State} {i : Instr} (hr : s.pinIn.rst = false) (hp : s.presented = some i) :
    ∃ u, exec i s = .next u ∧ EnvKept s u ∧ step s = .next (advance u) := by
  obtain ⟨u, hu, hm⟩ := exec_cases i s
  refine ⟨u, hu, hm.env, ?_⟩
  simp only [step, cycle_eq hr, hp, hu]
  rfl

/-- A step without reset and without a request is a cycle without an access. -/
theorem step_of_not_presented {s : State} (hr : s.pinIn.rst = false) (hp : s.presented = none) :
    step s = .next (advance (idleCycle s)) := by
  simp only [step, cycle_eq hr, hp]
  rfl

theorem eq_stepNext {s t : State} (h : step s = .next t) : t = stepNext s := by
  rw [step_eq_stepNext] at h
  cases h
  rfl

theorem stepNext_of_not_presented {s : State} (hr : s.pinIn.rst = false) (hp : s.presented = none) :
    stepNext s = advance (idleCycle s) :=
  (eq_stepNext (step_of_not_presented hr hp)).symm

theorem presented_of_request {s : State} {r : Request} (h : s.request = some r) :
    s.presented = some (decodeDescriptor r.descriptor) := by
  rw [State.presented, h, Option.map_some]

theorem presented_eq_none_iff (s : State) : s.presented = none ↔ s.request = none := by
  simp [State.presented]

/-- Settles O6: the cycle of the step is exec of the presented access, and exec leaves the environment to `advance`. -/
theorem stepRunsThePresentedAccess : Obligations.StepRunsThePresentedAccess := by
  rintro s r i hr hreq rfl
  obtain ⟨u, hu, henv, hs⟩ := step_of_presented hr (presented_of_request hreq)
  refine ⟨u, hu, hs.trans ?_⟩
  rw [advance, henv.host, henv.pins, henv.tick]

/-- No reset comes with a placed word: its pin input is cleared, or none is listed. -/
theorem present_pinIn_rst (s : State) (d : Descriptor) : (s.present d).pinIn.rst = false := by
  unfold State.pinIn
  rw [present_pins]
  cases s.pins <;> rfl

theorem present_presented (s : State) (d : Descriptor) : (s.present d).presented = some (decodeDescriptor d) := by
  have hreq : (s.present d).request = some (Request.ofDescriptor d) := rfl
  rw [presented_of_request hreq, ofDescriptor_descriptor, descriptorOf_fields]

/-- Settles O7: the placed line is first in the script, and its descriptor is the given word. -/
theorem placedWordRunsNext : Obligations.PlacedWordRunsNext := by
  intro s nbits w i h
  obtain ⟨-, rfl⟩ := (decode_eq_ok_iff _ _).1 ((decodeTableWord_eq_some_iff _ _ _).1 h)
  obtain ⟨u, hu, -, hs⟩ := step_of_presented (present_pinIn_rst s _) (present_presented s _)
  exact ⟨u, hu, hs⟩

theorem stepNext_par (s : State) : (stepNext s).par = s.par := by
  obtain ⟨-, h⟩ | ⟨-, u, h, hu⟩ := step_cases s
  · simp [stepNext, h]
  · simp [stepNext, h, hu.env.par]

/-- Settles O8: every case of a step answers a next state and none of them writes the parameters. -/
theorem everyCycleCompletes : Obligations.EveryCycleCompletes := by
  refine ⟨fun i s => ?_, fun s => ⟨_, step_eq_stepNext s, stepNext_par s⟩⟩
  obtain ⟨u, hu, hm⟩ := exec_cases i s
  exact ⟨u, hu, hm.env.par⟩

/-! ## The host's script -/

/-- Every cycle leaves the environment as it was, reset cycles included: only `advance` moves it. -/
theorem cycle_envKept {s u : State} (h : cycle s = .next u) : EnvKept s u := by
  obtain ⟨-, hc⟩ | ⟨-, v, hc, hv⟩ := cycle_cases s
  · rw [hc] at h
    cases h
    exact ⟨rfl, rfl, rfl, rfl⟩
  · rw [hc] at h
    cases h
    exact hv.env

/-- A step moves the script on by what the cycle answered. -/
theorem step_host {s t : State} (h : step s = .next t) : t.host = hostNext s.host t.out := by
  obtain ⟨u, hu, rfl⟩ := exists_cycle_of_step h
  rw [advance_host, (cycle_envKept hu).host, advance_out]

/-- The poll's test of a status word (R112): both status bits clear. -/
theorem and_six_eq_zero_iff (w : Word) : w &&& 6 = 0 ↔ w.getLsbD 1 = false ∧ w.getLsbD 2 = false := by
  constructor
  · intro h
    have h1 := congrArg (·.getLsbD 1) h
    have h2 := congrArg (·.getLsbD 2) h
    simpa using And.intro h1 h2
  · rintro ⟨h1, h2⟩
    apply BitVec.eq_of_getLsbD_eq
    intro k hk
    rw [BitVec.getLsbD_and]
    obtain rfl | rfl | h : k = 1 ∨ k = 2 ∨ (6 : Word).getLsbD k = false := by
      interval_cases k <;> simp
    · rw [h1]; simp
    · rw [h2]; simp
    · rw [h]; simp

theorem pollRequest_descriptor : decodeDescriptor pollRequest.descriptor = .rdConfig := by
  decide

/-- Settles O9: the entry in front presents its own request, and its own rule says when it is over. -/
theorem scriptFollowsTheNotation : Obligations.ScriptFollowsTheNotation := by
  intro s t op rest hs h
  have hreq : s.request = op.request := by rw [State.request, hs]
  have hhost : t.host = if op.over t.out then rest else op :: rest := by rw [step_host h, hs, hostNext]
  refine ⟨?_, ?_, ?_, ?_⟩
  · rintro r rfl
    exact ⟨hreq, hhost⟩
  · rintro r rfl
    exact ⟨hreq, hhost⟩
  · rintro rfl
    exact ⟨hreq, hhost⟩
  · rintro rfl
    refine ⟨(presented_of_request hreq).trans (congrArg some pollRequest_descriptor), hhost.trans ?_⟩
    simp only [HostOp.over, Bool.and_eq_true, beq_iff_eq, and_six_eq_zero_iff]

/-! ## Every step without reset, and runs of them -/

/-- The components' next values in a step without reset (R293). -/
theorem stepNext_coreFields {s : State} (hr : s.pinIn.rst = false) : CoreFieldsEq (stepNext s) (coreNext s) := by
  obtain ⟨hr', -⟩ | ⟨-, u, hu, hm⟩ := step_next_cases (step_eq_stepNext s)
  · simp [hr] at hr'
  · exact hu ▸ advance_coreFields hm.core

theorem stepNext_coreMoved {s : State} (hr : s.pinIn.rst = false) : CoreMoved s (stepNext s) :=
  coreMoved_of_step hr (step_eq_stepNext s)

/-- `pending` after a step without reset: cleared by start, or set by a `data` write (R243). -/
theorem stepNext_pending {s : State} (hr : s.pinIn.rst = false) :
    PendingMoved s (stepNext s) ∨ (stepNext s).pending = true := by
  obtain ⟨hr', -⟩ | ⟨-, u, hu, hm⟩ := step_next_cases (step_eq_stepNext s)
  · simp [hr] at hr'
  · exact hu ▸ hm.pending

theorem after_succ (s : State) (k : Nat) : s.after (k + 1) = stepNext (s.after k) := rfl

theorem after_par (s : State) (k : Nat) : (s.after k).par = s.par := by
  induction k with
  | zero => rfl
  | succ n ih => rw [after_succ, stepNext_par, ih]

/-- A run goes on from its second state. -/
theorem stepNext_after (s : State) (k : Nat) : (stepNext s).after k = s.after (k + 1) := by
  induction k with
  | zero => rfl
  | succ n ih => rw [after_succ, ih, ← after_succ]

end Sys2Proof.Machine
end

section
/-! The ClockGenerator over many cycles (spec/40_clock_generator.md section 3): every argument about it counts the
cycles that remain to the next edge. -/

namespace Sys2Proof.Machine

/-- The enabled cycles that remain before the next edge: the countdown, and one more for a pending extension (R131). -/
def ClockGen.remaining (g : ClockGen) : Nat := g.cnt.toNat + g.bias.toNat

theorem ClockGen.remaining_eq_zero_iff (g : ClockGen) : g.remaining = 0 ↔ g.edge = true := by
  simp [ClockGen.remaining, ClockGen.edge, ClockGen.zero, ← BitVec.toNat_inj]

theorem ClockGen.remaining_pos_iff (g : ClockGen) : 0 < g.remaining ↔ g.edge = false := by
  rw [Nat.pos_iff_ne_zero, Ne, g.remaining_eq_zero_iff, Bool.not_eq_true]

/-- An enabled cycle without an edge brings the edge one cycle nearer and leaves the clock line (R133, R134). -/
theorem ClockGen.next_of_not_edge {g : ClockGen} (h : g.edge = false) (load : Div) (phase : Bool) :
    (g.next true load phase).remaining + 1 = g.remaining ∧ (g.next true load phase).clk = g.clk := by
  by_cases hc : g.cnt = 0#8
  · have hb : g.bias = true := by simpa [ClockGen.edge, ClockGen.zero, hc] using h
    simp [ClockGen.next, ClockGen.zero, ClockGen.remaining, hc, hb]
  · have hdown : (g.cnt - 1#8).toNat + 1 = g.cnt.toNat := by bv_omega
    simp only [ClockGen.next, ClockGen.zero, ClockGen.remaining]
    simp [hc]
    omega

/-- An enabled edge reloads and toggles (R135). -/
theorem ClockGen.next_of_edge {g : ClockGen} (h : g.edge = true) (load : Div) (phase : Bool) :
    g.next true load phase = ⟨load >>> 1, load.getLsbD 0 && (g.clk ^^ phase), !g.clk⟩ := by
  obtain ⟨hc, hb⟩ : g.cnt = 0#8 ∧ g.bias = false := by simpa [ClockGen.edge, ClockGen.zero] using h
  simp [ClockGen.next, ClockGen.zero, hc, hb]

theorem ClockGen.remaining_next_of_edge {g : ClockGen} (h : g.edge = true) (load : Div) (phase : Bool) :
    (g.next true load phase).remaining = load.toNat / 2 + (g.next true load phase).bias.toNat := by
  rw [next_of_edge h, ClockGen.remaining, BitVec.toNat_ushiftRight, Nat.shiftRight_eq_div_pow, pow_one]

/-- Until the next edge the run counts down and the clock line stays. -/
theorem clockAfter_countdown (load : Div) (phase : Bool) (g : ClockGen) {k : Nat} (hk : k ≤ g.remaining) :
    (clockAfter load phase g k).remaining + k = g.remaining ∧ (clockAfter load phase g k).clk = g.clk := by
  induction k with
  | zero => exact ⟨rfl, rfl⟩
  | succ n ih =>
    obtain ⟨hrem, hclk⟩ := ih (by omega)
    have hnot : (clockAfter load phase g n).edge = false := (ClockGen.remaining_pos_iff _).1 (by omega)
    obtain ⟨hrem', hclk'⟩ := ClockGen.next_of_not_edge hnot load phase
    exact ⟨by rw [clockAfter]; omega, hclk'.trans hclk⟩

/-- The next edge comes exactly when the countdown has run out. -/
theorem edge_clockAfter_iff (load : Div) (phase : Bool) (g : ClockGen) {k : Nat} (hk : k ≤ g.remaining) :
    (clockAfter load phase g k).edge = true ↔ k = g.remaining := by
  obtain ⟨hrem, -⟩ := clockAfter_countdown load phase g hk
  rw [← ClockGen.remaining_eq_zero_iff]
  omega

/-- Settles O47: the edge leaves the half-period's length on the countdown. -/
theorem halfPeriodLength : Obligations.HalfPeriodLength := by
  intro g load phase load' phase' he g1
  have hrem : g1.remaining = load.toNat / 2 + g1.bias.toNat := ClockGen.remaining_next_of_edge he load phase
  rw [← hrem]
  refine ⟨fun k hk => ?_, (edge_clockAfter_iff load' phase' g1 le_rfl).2 rfl⟩
  rw [← Bool.not_eq_true, edge_clockAfter_iff load' phase' g1 hk.le]
  exact hk.ne

theorem clockAfter_add (load : Div) (phase : Bool) (g : ClockGen) (m n : Nat) :
    clockAfter load phase g (m + n) = clockAfter load phase (clockAfter load phase g m) n := by
  induction n with
  | zero => rfl
  | succ n ih => rw [← Nat.add_assoc, clockAfter, ih, clockAfter]

/-- The cycles from an edge to the next one (R137). -/
def halfPeriod (load : Div) (phase : Bool) (g : ClockGen) : Nat := (g.next true load phase).remaining + 1

/-- From an edge, the next edge comes after one half-period and none before, with the clock line toggled. -/
theorem clockAfter_halfPeriod (load : Div) (phase : Bool) {g : ClockGen} (he : g.edge = true) :
    (∀ k, 0 < k → k ≤ halfPeriod load phase g →
      ((clockAfter load phase g k).edge = true ↔ k = halfPeriod load phase g)) ∧
    (clockAfter load phase g (halfPeriod load phase g)).clk = !g.clk := by
  have hfirst (k : Nat) : clockAfter load phase g (k + 1) = clockAfter load phase (g.next true load phase) k := by
    rw [Nat.add_comm, clockAfter_add]
    rfl
  refine ⟨fun k hpos hk => ?_, ?_⟩
  · obtain ⟨j, rfl⟩ : ∃ j, k = j + 1 := ⟨k - 1, by omega⟩
    rw [halfPeriod] at hk ⊢
    rw [hfirst, edge_clockAfter_iff load phase _ (by omega), Nat.succ_inj]
  · rw [halfPeriod, hfirst, (clockAfter_countdown load phase _ le_rfl).2, ClockGen.next_of_edge he]

/-- A half-period with the line at one level and one with it at the other make `load + 2` cycles: the odd cycle of the
load goes to exactly one of them (R138). -/
theorem halfPeriod_add_halfPeriod (load : Div) (phase : Bool) {g g' : ClockGen} (he : g.edge = true)
    (he' : g'.edge = true) (hclk : g'.clk = !g.clk) :
    halfPeriod load phase g + halfPeriod load phase g' = load.toNat + 2 := by
  have hodd : load.getLsbD 0 = decide (load.toNat % 2 = 1) := by
    simp [BitVec.getLsbD, Nat.testBit_zero]
  have hbias : (g.next true load phase).bias.toNat + (g'.next true load phase).bias.toNat = load.toNat % 2 := by
    rw [ClockGen.next_of_edge he, ClockGen.next_of_edge he', hclk, hodd]
    obtain hpar | hpar := Nat.mod_two_eq_zero_or_one load.toNat <;> cases g.clk <;> cases phase <;> simp [hpar]
  rw [halfPeriod, halfPeriod, ClockGen.remaining_next_of_edge he, ClockGen.remaining_next_of_edge he']
  omega

/-- Settles O48: two half-periods, the clock line toggled twice, and the edge between them the only one inside. -/
theorem clockPeriodIsLoadPlusTwo : Obligations.ClockPeriodIsLoadPlusTwo := by
  intro g load phase he
  obtain ⟨hfirst, hclk⟩ := clockAfter_halfPeriod load phase he
  have hpos (g : ClockGen) : 0 < halfPeriod load phase g := Nat.succ_pos _
  have he' := (hfirst _ (hpos g) le_rfl).2 rfl
  obtain ⟨hsecond, hclk'⟩ := clockAfter_halfPeriod load phase he'
  have hsum := halfPeriod_add_halfPeriod load phase he he' hclk
  have hpos' := hpos (clockAfter load phase g (halfPeriod load phase g))
  refine ⟨?_, ?_, halfPeriod load phase g, hpos g, by omega, fun k hk hk' => ?_⟩
  · rw [← hsum, clockAfter_add]
    exact (hsecond _ hpos' le_rfl).2 rfl
  · rw [← hsum, clockAfter_add, hclk', hclk, Bool.not_not]
  · by_cases hle : k ≤ halfPeriod load phase g
    · exact hfirst k hk hle
    · obtain ⟨j, rfl⟩ : ∃ j, k = halfPeriod load phase g + j := ⟨k - halfPeriod load phase g, by omega⟩
      rw [clockAfter_add, hsecond j (by omega) (by omega)]
      omega

end Sys2Proof.Machine
end

section
/-! One normal form for the cycle of every access: a cycle in which nothing is written, and then the access's commit
where it is performed. The statements of spec/44_register_file.md sections 1, 2 and 5 are read off it. -/

namespace Sys2Proof.Machine

/-! ## The normal form -/

/-- Whether the access is ready (R232): only a `data` write can have to wait. -/
def accessReady (i : Instr) (s : State) : Bool :=
  match i with
  | .wrData _ => s.dataReady
  | .rdData | .rdXfer | .rdConfig | .rdConfig3 | .wrXfer _ | .wrConfig _ | .wrConfig3 _ => true

/-- The register at the access's index, as a read under ATOMIC returns it (R233, R235, R237). -/
def accessLive (i : Instr) (s : State) : Word :=
  match i with
  | .rdData | .wrData _ => s.dataRead
  | .rdXfer | .wrXfer _ => s.xferRaw
  | .rdConfig | .rdConfig3 | .wrConfig _ | .wrConfig3 _ => s.configLive

/-- The same as the adapter registers it (R247). -/
def accessRegistered (i : Instr) (s : State) : Word :=
  match i with
  | .rdData | .wrData _ => s.dataRead
  | .rdXfer | .wrXfer _ => s.xferRaw
  | .rdConfig | .rdConfig3 | .wrConfig _ | .wrConfig3 _ => s.configRegistered

/-- What the access writes where it is performed (R234, R236, R238). -/
def accessCommit (i : Instr) (n : State) : State :=
  match i with
  | .wrData w => writeData w n
  | .wrXfer w => writeXfer w n
  | .wrConfig w | .wrConfig3 w => writeConfig w n
  | .rdData | .rdXfer | .rdConfig | .rdConfig3 => n

/-- The access's cycle, its commit left out. -/
def accessBase (i : Instr) (s : State) : State :=
  if i.we then writeBase (accessReady i s) (accessRegistered i s) s
  else readCycle (accessLive i s) (accessRegistered i s) s

/-- Whether the access is performed in this cycle (R231, R247). -/
def accessPerformed (i : Instr) (s : State) : Bool := writeCommits (accessReady i s) s

/-- The next state of the access's cycle. -/
def accessNext (i : Instr) (s : State) : State :=
  if accessPerformed i s then accessCommit i (accessBase i s) else accessBase i s

theorem accessNext_of_read {i : Instr} (h : i.we = false) (s : State) : accessNext i s = accessBase i s := by
  have hid : ∀ n, accessCommit i n = n := by
    cases i <;> simp_all [Instr.we, accessCommit]
  rw [accessNext, hid, ite_self]

theorem exec_eq (i : Instr) (s : State) : exec i s = .next (accessNext i s) := by
  cases i with
  | rdData | rdXfer | rdConfig | rdConfig3 => rw [accessNext_of_read rfl]; rfl
  | wrData | wrXfer | wrConfig | wrConfig3 => exact congrArg _ (writeCycle_eq _ _ _ s)

theorem accessNext_of_performed {i : Instr} {s : State} (h : accessPerformed i s = true) :
    accessNext i s = accessCommit i (accessBase i s) :=
  if_pos h

theorem accessNext_of_not_performed {i : Instr} {s : State} (h : accessPerformed i s = false) :
    accessNext i s = accessBase i s :=
  if_neg (by simp [h])

theorem accessReady_of_read {i : Instr} (h : i.we = false) (s : State) : accessReady i s = true := by
  cases i <;> simp_all [Instr.we, accessReady]

/-- The acceptance rule's left part (R232), by the access's own row. -/
theorem accessReady_iff (i : Instr) (s : State) :
    accessReady i s = true ↔ i.we = false ∨ i.idx ≠ 0 ∨ s.pending = false ∨ s.done = true := by
  cases i with
  | wrData w => simp [accessReady, dataReady_iff, Instr.we, Instr.idx]
  | rdData | rdXfer | rdConfig | rdConfig3 | wrXfer | wrConfig | wrConfig3 => simp [accessReady, Instr.we, Instr.idx]

theorem stepNext_of_presented {s : State} {i : Instr} (hr : s.pinIn.rst = false) (hp : s.presented = some i) :
    stepNext s = advance (accessNext i s) := by
  obtain ⟨u, hu, -, hs⟩ := step_of_presented hr hp
  rw [exec_eq] at hu
  cases hu
  exact (eq_stepNext hs).symm

theorem accessPerformed_of_atomic {s : State} (h : s.par.busAdapter = .atomic) (i : Instr) :
    accessPerformed i s = accessReady i s :=
  writeCommits_of_atomic h _

theorem accessPerformed_of_adapter {s : State} (h : s.par.busAdapter = .wbRegistered) (i : Instr) :
    accessPerformed i s = s.wb.ack := by
  rw [accessPerformed, writeCommits, h]

/-! ## The cycle without the commit -/

/-- What a cycle in which nothing is written does to the block, under either adapter. -/
structure NothingWritten (s n : State) : Prop extends BufferKept s n where
  core : CoreFieldsEq n (coreNext s)
  env : EnvKept s n
  cfg : n.cfg = s.cfg
  xferRaw : n.xferRaw = s.xferRaw

theorem NothingWritten.coreMoved {s n : State} (h : NothingWritten s n) : CoreMoved s n :=
  (coreMoved_coreNext s).congr h.core

theorem idleCycle_nothingWritten (s : State) : NothingWritten s (idleCycle s) := by
  obtain ⟨hcore, henv, hcfg, hxfer, hdata, hpending, -⟩ := idleCycle_spec s
  exact ⟨⟨hdata, hpending⟩, hcore, henv, hcfg, hxfer⟩

/-- Everything an access's cycle does before its commit. -/
theorem accessBase_spec (i : Instr) (s : State) :
    NothingWritten s (accessBase i s) ∧ (accessBase i s).faultBus = s.faultBus ∧
    (s.par.busAdapter = .atomic → (accessBase i s).wb = s.wb ∧ (accessBase i s).out =
      s.outputs (accessReady i s) (if i.we then Config.freeRdat s.tick else accessLive i s)) ∧
    (s.par.busAdapter = .wbRegistered →
      (accessBase i s).wb = s.wbNext true (accessReady i s) (accessRegistered i s) ∧
      (accessBase i s).out = s.outputs s.wb.ack s.wb.datR) := by
  cases hw : i.we with
  | true =>
    rw [accessBase, if_pos hw, if_pos rfl]
    obtain ⟨hcore, henv, hcfg, hxfer, hdata, hpending, hfault, hatomic, hadapter⟩ :=
      writeBase_spec (accessReady i s) (accessRegistered i s) s
    exact ⟨⟨⟨hdata, hpending⟩, hcore, henv, hcfg, hxfer⟩, hfault, hatomic, hadapter⟩
  | false =>
    rw [accessBase, if_neg (by simp [hw]), if_neg (by simp), accessReady_of_read hw]
    obtain ⟨hcore, henv, hcfg, hxfer, hdata, hpending, hfault, hatomic, hadapter⟩ :=
      readCycle_spec (accessLive i s) (accessRegistered i s) s
    exact ⟨⟨⟨hdata, hpending⟩, hcore, henv, hcfg, hxfer⟩, hfault, hatomic, hadapter⟩

theorem accessBase_nothingWritten (i : Instr) (s : State) : NothingWritten s (accessBase i s) :=
  (accessBase_spec i s).1

theorem accessBase_faultBus (i : Instr) (s : State) : (accessBase i s).faultBus = s.faultBus :=
  (accessBase_spec i s).2.1

theorem accessBase_of_atomic {s : State} (h : s.par.busAdapter = .atomic) (i : Instr) :
    (accessBase i s).wb = s.wb ∧ (accessBase i s).out =
      s.outputs (accessReady i s) (if i.we then Config.freeRdat s.tick else accessLive i s) :=
  (accessBase_spec i s).2.2.1 h

theorem accessBase_of_adapter {s : State} (h : s.par.busAdapter = .wbRegistered) (i : Instr) :
    (accessBase i s).wb = s.wbNext true (accessReady i s) (accessRegistered i s) ∧
      (accessBase i s).out = s.outputs s.wb.ack s.wb.datR :=
  (accessBase_spec i s).2.2.2 h

theorem accessBase_restKept (i : Instr) (s : State) : RestKept s (accessBase i s) := by
  have henv := (accessBase_nothingWritten i s).env
  exact ⟨henv.par, accessBase_faultBus i s, henv.host, henv.pins, henv.tick⟩

/-- The acknowledge is raised exactly in the cycle in which the access is performed (R231, R247). -/
theorem accessBase_ack (i : Instr) (s : State) : (accessBase i s).out.ack = accessPerformed i s := by
  cases h : s.par.busAdapter with
  | atomic => rw [(accessBase_of_atomic h i).2, accessPerformed_of_atomic h, State.outputs]
  | wbRegistered => rw [(accessBase_of_adapter h i).2, accessPerformed_of_adapter h, State.outputs]

/-! ## The commit -/

/-- `m` is `n` but for what a host write changes: the host registers and `pending`. -/
structure RegistersOnly (n m : State) : Prop where
  core : CoreFieldsEq m n
  rest : RestKept n m
  wb : m.wb = n.wb
  out : m.out = n.out

theorem RegistersOnly.refl (n : State) : RegistersOnly n n :=
  ⟨⟨rfl, rfl, rfl, rfl, rfl, rfl, rfl, rfl, rfl⟩, ⟨rfl, rfl, rfl, rfl, rfl⟩, rfl, rfl⟩

theorem accessCommit_registersOnly (i : Instr) (n : State) : RegistersOnly n (accessCommit i n) := by
  cases i <;> exact ⟨⟨rfl, rfl, rfl, rfl, rfl, rfl, rfl, rfl, rfl⟩, ⟨rfl, rfl, rfl, rfl, rfl⟩, rfl, rfl⟩

theorem accessNext_registersOnly (i : Instr) (s : State) : RegistersOnly (accessBase i s) (accessNext i s) := by
  rw [accessNext]
  split
  · exact accessCommit_registersOnly i _
  · exact RegistersOnly.refl _

theorem accessNext_coreMoved (i : Instr) (s : State) : CoreMoved s (accessNext i s) :=
  (accessBase_nothingWritten i s).coreMoved.congr (accessNext_registersOnly i s).core

theorem accessNext_restKept (i : Instr) (s : State) : RestKept s (accessNext i s) := by
  obtain ⟨hpar, hfault, hhost, hpins, htick⟩ := (accessNext_registersOnly i s).rest
  obtain ⟨hpar', hfault', hhost', hpins', htick'⟩ := accessBase_restKept i s
  exact ⟨hpar.trans hpar', hfault.trans hfault', hhost.trans hhost', hpins.trans hpins', htick.trans htick'⟩

theorem accessNext_pinsShown (i : Instr) (s : State) : PinsShown s (accessNext i s) :=
  (exec_outputsOf (exec_eq i s)).pinsShown

theorem accessNext_ack (i : Instr) (s : State) : (accessNext i s).out.ack = accessPerformed i s := by
  rw [(accessNext_registersOnly i s).out, accessBase_ack]

theorem accessNext_wb_of_atomic {s : State} (h : s.par.busAdapter = .atomic) (i : Instr) :
    (accessNext i s).wb = s.wb :=
  (accessNext_registersOnly i s).wb.trans (accessBase_of_atomic h i).1

theorem accessNext_rdat_of_read {s : State} {i : Instr} (h : s.par.busAdapter = .atomic) (hi : i.we = false) :
    (accessNext i s).out.rdat = accessLive i s := by
  rw [accessNext_of_read hi, (accessBase_of_atomic h i).2, State.outputs, hi]
  rfl

/-! ## Accesses under ATOMIC -/

/-- What every access under ATOMIC does beside its commit. -/
theorem accessNext_frame {s : State} (h : s.par.busAdapter = .atomic) (i : Instr) :
    (accessNext i s).wb = s.wb ∧ RestKept s (accessNext i s) ∧ PinsShown s (accessNext i s) :=
  ⟨accessNext_wb_of_atomic h i, accessNext_restKept i s, accessNext_pinsShown i s⟩

/-- What a read under ATOMIC answers, and that it writes nothing (R77, R231). -/
theorem exec_read {s : State} {i : Instr} (h : s.par.busAdapter = .atomic) (hi : i.we = false) :
    ∃ t, exec i s = .next t ∧ t.out.ack = true ∧ t.out.rdat = accessLive i s ∧
      CoreMoved s t ∧ PendingMoved s t ∧ t.cfg = s.cfg ∧ t.xferRaw = s.xferRaw ∧ t.dataWrite = s.dataWrite ∧
      t.wb = s.wb ∧ RestKept s t ∧ PinsShown s t := by
  have hack : (accessNext i s).out.ack = true := by
    rw [accessNext_ack, accessPerformed_of_atomic h, accessReady_of_read hi]
  have hbase := accessBase_nothingWritten i s
  rw [← accessNext_of_read hi] at hbase
  exact ⟨_, exec_eq i s, hack, accessNext_rdat_of_read h hi, hbase.coreMoved, hbase.pending, hbase.cfg,
    hbase.xferRaw, hbase.dataWrite, accessNext_frame h i⟩

/-- Settles O10: a read of index 0. -/
theorem readDataReturnsTheLastCapture : Obligations.ReadDataReturnsTheLastCapture :=
  fun _ h => exec_read h rfl

/-- Settles O11: a read of index 1. -/
theorem readXferReturnsTheStoredWord : Obligations.ReadXferReturnsTheStoredWord :=
  fun _ h => exec_read h rfl

/-- The fields of more than one bit in a `config` word (R104). -/
theorem extractLsb'_configWord (c : Cfg) (a p : Bool) :
    (configWord c a p).extractLsb' 8 8 = c.rsv ∧ (configWord c a p).extractLsb' 16 8 = c.divWrite ∧
      (configWord c a p).extractLsb' 24 8 = c.divRead := by
  have hfield (x : BitVec 8) (b : Nat) (hb : b ≤ 24)
      (hx : ∀ k, k < 8 → (configWord c a p).getLsbD (b + k) = x.getLsbD k) :
      (configWord c a p).extractLsb' b 8 = x := by
    apply BitVec.eq_of_getLsbD_eq
    intro k hk
    rw [BitVec.getLsbD_extractLsb', hx k hk]
    simp [hk]
  refine ⟨hfield _ 8 (by decide) fun k hk => ?_, hfield _ 16 (by decide) fun k hk => ?_,
    hfield _ 24 (by decide) fun k hk => ?_⟩ <;> rw [getLsbD_configWord _ _ _ _ (by omega)]
  · interval_cases k <;> rfl
  · interval_cases k <;> rfl
  · interval_cases k <;> rfl

/-- Settles O12: a read of index 2 or 3, its word taken apart bit by bit. -/
theorem readConfigShowsTheLiveStatus : Obligations.ReadConfigShowsTheLiveStatus := by
  intro i s hi h
  have hread : i.we = false ∧ accessLive i s = configWord s.cfg s.cs s.pending := by
    obtain rfl | rfl := hi <;> exact ⟨rfl, rfl⟩
  obtain ⟨hwe, hlive⟩ := hread
  obtain ⟨t, ht, hack, hrdat, hmoved⟩ := exec_read h hwe
  obtain ⟨hrsv, hdw, hdr⟩ := extractLsb'_configWord s.cfg s.cs s.pending
  refine ⟨t, ht, hack, ?_⟩
  rw [hrdat, hlive]
  have hbit (k : Nat) (hk : k < 32) := getLsbD_configWord s.cfg s.cs s.pending k hk
  refine ⟨hbit 0 (by decide), ?_, hbit 2 (by decide), hbit 3 (by decide), hbit 4 (by decide),
    hbit 5 (by decide), hbit 6 (by decide), hbit 7 (by decide), hrsv, hdw, hdr, hmoved⟩
  rw [hbit 1 (by decide)]
  exact cs_iff s

/-- Settles O13: performed when ready, and otherwise a cycle in which nothing is written. -/
theorem writeDataQueuesATransferOrStalls : Obligations.WriteDataQueuesATransferOrStalls := by
  intro w s h
  have hperformed : accessPerformed (.wrData w) s = s.dataReady := accessPerformed_of_atomic h _
  have hack := accessNext_ack (.wrData w) s
  have hcore := accessNext_coreMoved (.wrData w) s
  have hframe := accessNext_frame h (.wrData w)
  have hbase := accessBase_nothingWritten (.wrData w) s
  refine ⟨fun hready => ⟨_, exec_eq _ s, ?_⟩, fun hp hd => ⟨_, exec_eq _ s, ?_⟩⟩
  · rw [hperformed, (dataReady_iff s).2 hready] at hack
    rw [accessNext_of_performed (hperformed.trans ((dataReady_iff s).2 hready))] at hack hcore hframe ⊢
    exact ⟨hack, rfl, rfl, hcore, hbase.cfg, hbase.xferRaw, hframe⟩
  · have hstall : s.dataReady = false := by simp [State.dataReady, hp, hd]
    rw [hperformed, hstall] at hack
    rw [accessNext_of_not_performed (hperformed.trans hstall)] at hack hcore hframe ⊢
    exact ⟨hack, hbase.dataWrite, hbase.pending, hcore, hbase.cfg, hbase.xferRaw, hframe⟩

/-- Settles O14: always ready, and its commit changes the `xfer` word alone. -/
theorem writeXferStoresTheWord : Obligations.WriteXferStoresTheWord := by
  intro w s h
  have hperformed : accessPerformed (.wrXfer w) s = true := accessPerformed_of_atomic h _
  have hack := (accessNext_ack (.wrXfer w) s).trans hperformed
  have hcore := accessNext_coreMoved (.wrXfer w) s
  have hframe := accessNext_frame h (.wrXfer w)
  have hbase := accessBase_nothingWritten (.wrXfer w) s
  refine ⟨_, exec_eq _ s, ?_⟩
  rw [accessNext_of_performed hperformed] at hack hcore hframe ⊢
  exact ⟨hack, rfl, hcore, hbase.pending, hbase.cfg, hbase.dataWrite, hframe⟩

/-- Settles O15: always ready, and its commit changes the `config` fields alone. -/
theorem writeConfigStoresEveryField : Obligations.WriteConfigStoresEveryField := by
  intro i w s hi h
  have hwrite : accessReady i s = true ∧ ∀ n, accessCommit i n = writeConfig w n := by
    obtain rfl | rfl := hi <;> exact ⟨rfl, fun _ => rfl⟩
  obtain ⟨hready, hcommit⟩ := hwrite
  have hperformed : accessPerformed i s = true := (accessPerformed_of_atomic h i).trans hready
  have hack := (accessNext_ack i s).trans hperformed
  have hcore := accessNext_coreMoved i s
  have hframe := accessNext_frame h i
  have hbase := accessBase_nothingWritten i s
  refine ⟨_, exec_eq _ s, ?_⟩
  rw [accessNext_of_performed hperformed, hcommit] at hack hcore hframe ⊢
  exact ⟨hack, rfl, hcore, hbase.pending, hbase.xferRaw, hbase.dataWrite, hframe⟩

theorem sameButOutputs_setOut (o o' : Outputs) (n : State) : SameButOutputs (setOut o n) (setOut o' n) := rfl

/-- Under ATOMIC a cycle in which nothing is written is the core's move, whatever access it holds. -/
theorem accessBase_eq_of_atomic {s : State} (h : s.par.busAdapter = .atomic) (i : Instr) :
    accessBase i s = setOut (accessBase i s).out (coreNext s) := by
  cases hw : i.we <;> simp [accessBase, hw, readCycle, writeBase, h]

theorem idleCycle_eq_of_atomic {s : State} (h : s.par.busAdapter = .atomic) :
    idleCycle s = setOut (idleCycle s).out (coreNext s) := by
  simp [idleCycle, h]

/-- Settles O17: what is left of a read, and of an access that is not performed, is the cycle without its commit. -/
theorem readsAndStallsHaveNoEffect : Obligations.ReadsAndStallsHaveNoEffect := by
  intro i s h
  refine ⟨_, exec_eq i s, fun hnone => ?_⟩
  have hbase : accessNext i s = accessBase i s := by
    obtain hread | hstall := hnone
    · exact accessNext_of_read hread s
    · exact accessNext_of_not_performed ((accessNext_ack i s).symm.trans hstall)
  rw [hbase, accessBase_eq_of_atomic h, idleCycle_eq_of_atomic h]
  exact sameButOutputs_setOut _ _ _

/-- Settles O18: the arms of index 3 are those of index 2. -/
theorem indexThreeIsConfig : Obligations.IndexThreeIsConfig :=
  ⟨fun _ => rfl, fun _ _ => rfl⟩

/-- The bits of a word read back from the fields it was stored in, the reserved ones left out (R104, R106). -/
theorem getLsbD_configWord_ofWord (w : Word) (a p : Bool) {k : Nat} (hk : k < 8 ∨ (16 ≤ k ∧ k < 32)) :
    (configWord (Cfg.ofWord w) a p).getLsbD k = if k = 1 then a else if k = 2 then p else w.getLsbD k := by
  rw [getLsbD_configWord _ _ _ _ (by omega)]
  obtain hlow | ⟨hge, hlt⟩ := hk
  · interval_cases k <;> rfl
  · interval_cases k <;> simp [Cfg.ofWord]

/-- Settles O19: the read returns the stored fields, which the write took from the word. -/
theorem configReadsBackAsWritten : Obligations.ConfigReadsBackAsWritten := by
  intro w s h
  obtain ⟨t, ht, -, hcfg, -, -, -, -, -, ⟨hpar, -⟩, -⟩ :=
    writeConfigStoresEveryField (.wrConfig w) w s (.inl rfl) h
  obtain ⟨u, hu, -, hrdat, -⟩ := exec_read (i := .rdConfig) (s := t) (by rw [hpar, h]) rfl
  refine ⟨t, u, ht, hu, fun k hk => ?_⟩
  have hlive : u.out.rdat = configWord (Cfg.ofWord w) t.cs t.pending := by
    rw [hrdat, accessLive, State.configLive, hcfg]
    rfl
  rw [hlive, getLsbD_configWord_ofWord w _ _ hk]

/-- Settles O20: the read returns `data_read`, which the write's cycle changes by its capture only. -/
theorem dataReadIsIndependentOfDataWrite : Obligations.DataReadIsIndependentOfDataWrite := by
  intro w s h hready
  obtain ⟨t, ht, -, hdata, -, ⟨-, -, -, -, -, hcapture, -⟩, -, -, -, ⟨hpar, -⟩, -⟩ :=
    (writeDataQueuesATransferOrStalls w s h).1 hready
  obtain ⟨u, hu, -, hrdat, -⟩ := exec_read (i := .rdData) (s := t) (by rw [hpar, h]) rfl
  exact ⟨t, u, ht, hu, hdata, hrdat.trans hcapture⟩

/-! ## A cycle without an access, and the adapter -/

/-- Settles O21: a cycle in which nothing is written, with the adapter's registers read off it. -/
theorem cycleWithoutAccess : Obligations.CycleWithoutAccess := by
  intro s hr hreq
  have hcycle : cycle s = .next (idleCycle s) := by
    rw [cycle_eq hr, (presented_eq_none_iff s).2 hreq]
  have hidle := idleCycle_nothingWritten s
  obtain ⟨-, -, -, -, -, -, hatomic, hadapter⟩ := idleCycle_spec s
  refine ⟨_, hcycle, hidle.coreMoved, hidle.pending, hidle.cfg, hidle.xferRaw, hidle.dataWrite,
    (idleCycle_outputsOf s).pinsShown, fun h => ?_, fun h => ?_⟩
  · obtain ⟨hwb, hfault, hout⟩ := hatomic h
    exact ⟨by rw [hout, State.outputs], hwb, hidle.env.par, hfault, hidle.env.host, hidle.env.pins, hidle.env.tick⟩
  · obtain ⟨hwb, hfault, hout⟩ := hadapter h
    rw [hwb, hout, hfault, Bool.or_eq_true]
    exact ⟨rfl, rfl, rfl, cs_iff s, rfl, Iff.rfl, hidle.env.par, hidle.env.host, hidle.env.pins, hidle.env.tick⟩

/-- What the adapter registers at each index, as the statement's table gives it (R247). -/
theorem accessRegistered_eq (i : Instr) (s : State) :
    accessRegistered i s = if i.idx = 0 then s.dataRead else if i.idx = 1 then s.xferRaw
      else configWord s.cfg s.wb.activeQ s.wb.pendingQ := by
  cases i <;> rfl

/-- Settles O22: the adapter's registers in the normal form, which a commit leaves alone. -/
theorem adapterRegistersTheAnswer : Obligations.AdapterRegistersTheAnswer := by
  intro i s h
  obtain ⟨hwb, hout⟩ := accessBase_of_adapter h i
  rw [← (accessNext_registersOnly i s).wb] at hwb
  rw [← (accessNext_registersOnly i s).out] at hout
  refine ⟨_, exec_eq i s, by rw [hout, State.outputs], by rw [hout, State.outputs], ?_⟩
  rw [hwb]
  refine ⟨?_, cs_iff s, rfl, fun _ => accessRegistered_eq i s, accessNext_coreMoved i s,
    accessNext_restKept i s, accessNext_pinsShown i s⟩
  rw [State.wbNext, ← accessReady_iff]
  simp

/-- Settles O23: performed exactly where `wb.ack` is up, and then the access's own commit. -/
theorem adapterCommitsInTheAcknowledgeCycle : Obligations.AdapterCommitsInTheAcknowledgeCycle := by
  intro i s h
  have hbase := accessBase_nothingWritten i s
  have hperformed := accessPerformed_of_adapter h i
  refine ⟨_, exec_eq i s, fun hnone => ?_, fun hack => ?_⟩
  · have hnext : accessNext i s = accessBase i s := by
      obtain hack | hread := hnone
      · exact accessNext_of_not_performed (hperformed.trans hack)
      · exact accessNext_of_read hread s
    rw [hnext]
    exact ⟨hbase.pending, hbase.dataWrite, hbase.xferRaw, hbase.cfg⟩
  · rw [accessNext_of_performed (hperformed.trans hack)]
    refine ⟨?_, ?_, ?_⟩
    · rintro w rfl
      exact ⟨rfl, rfl, hbase.xferRaw, hbase.cfg⟩
    · rintro w rfl
      exact ⟨rfl, hbase.pending, hbase.dataWrite, hbase.cfg⟩
    · rintro w (rfl | rfl) <;> exact ⟨rfl, hbase.pending, hbase.dataWrite, hbase.xferRaw⟩

/-- The bus fault after a step without reset (R325): only a cycle without a request can raise it. -/
theorem step_faultBus_iff {s t : State} (hr : s.pinIn.rst = false) (h : step s = .next t) :
    t.faultBus = true ↔
      s.faultBus = true ∨ (s.par.busAdapter = .wbRegistered ∧ s.wb.ack = true ∧ s.request = none) := by
  rw [eq_stepNext h]
  cases hp : s.presented with
  | some i =>
    rw [stepNext_of_presented hr hp]
    have hreq : s.request ≠ none := fun hnone => by simp [(presented_eq_none_iff s).2 hnone] at hp
    obtain ⟨-, hfault, -⟩ := accessNext_restKept i s
    simp [hfault, hreq]
  | none =>
    rw [stepNext_of_not_presented hr hp]
    have hreq := (presented_eq_none_iff s).1 hp
    obtain ⟨-, -, -, -, -, -, hatomic, hadapter⟩ := idleCycle_spec s
    cases hb : s.par.busAdapter with
    | atomic =>
      obtain ⟨-, hfault, -⟩ := hatomic hb
      simp [hfault]
    | wbRegistered =>
      obtain ⟨-, hfault, -⟩ := hadapter hb
      simp [hfault, hreq]

/-- Settles O24: the bus fault's own rule, the length fault's rule from the core's move, and a cycle without a request
writes nothing. -/
theorem droppedRequestSetsTheBusFault : Obligations.DroppedRequestSetsTheBusFault := by
  intro s t hr h
  obtain ⟨-, -, -, -, -, -, hlen⟩ := coreMoved_of_step hr h
  refine ⟨step_faultBus_iff hr h, hlen, fun hreq => ?_⟩
  rw [eq_stepNext h, stepNext_of_not_presented hr ((presented_eq_none_iff s).2 hreq)]
  have hidle := idleCycle_nothingWritten s
  exact ⟨hidle.dataWrite, hidle.xferRaw, hidle.cfg, hidle.pending⟩

end Sys2Proof.Machine
end

section
/-! The components' remaining statements (spec/40_clock_generator.md, spec/41_shift_register.md,
spec/43_sequencer.md), the literal start, chaining, and reset (spec/70_reset_and_hazards.md). -/

namespace Sys2Proof.Machine

/-! ## The ClockGenerator's gate and its load -/

theorem cgCe_eq_false_iff (s : State) :
    s.cgCe = false ↔ s.fsm = .idle ∧ s.start = false ∧ s.edge = true := by
  have hcs : s.cs = false ↔ s.fsm = .idle := by simp [State.cs]
  simp only [State.cgCe, Bool.or_eq_false_iff, Bool.not_eq_false', hcs]
  tauto

/-- While a transfer is active the generator is enabled (R132). -/
theorem cgCe_of_active {s : State} (h : s.fsm ≠ .idle) : s.cgCe = true := by
  rw [← Bool.not_eq_false, cgCe_eq_false_iff]
  exact fun ⟨hf, _⟩ => h hf

/-- The clock line toggles at an enabled edge and nowhere else (R135). -/
theorem stepNext_clk {s : State} (hr : s.pinIn.rst = false) :
    (stepNext s).cg.clk = if s.edge = true ∧ s.cgCe = true then !s.cg.clk else s.cg.clk := by
  rw [(stepNext_coreFields hr).cg, coreNext_cg]
  cases hce : s.cgCe with
  | false => simp [ClockGen.next]
  | true =>
    cases he : s.edge with
    | false => simp [(ClockGen.next_of_not_edge he s.load s.biasIn).2]
    | true => simp [ClockGen.next_of_edge he]

/-- Settles O26: the gate's three terms, and the clock line's rule. -/
theorem clockIsFrozenWhileIdle : Obligations.ClockIsFrozenWhileIdle := by
  intro s t hr h
  obtain ⟨⟨hfrozen, -⟩, -⟩ := coreMoved_of_step hr h
  refine ⟨cgCe_eq_false_iff s, hfrozen, fun hf hs => ?_⟩
  rw [eq_stepNext h, stepNext_clk hr, if_neg]
  rintro ⟨he, hce⟩
  rw [(cgCe_eq_false_iff s).2 ⟨hf, hs, he⟩] at hce
  cases hce

theorem br_iff (s : State) : s.br = true ↔ s.nRead ≠ 0 := by
  simp [State.br]

theorem load_of_write {s : State} (h : s.nWrite ≠ 0 ∨ s.nRead = 0) : s.load = s.cfg.divWrite := by
  rw [State.load, if_pos]
  rw [Bool.or_eq_true, Bool.not_eq_true', ← Bool.not_eq_true, bw_iff, br_iff, not_not]
  exact h

theorem load_of_read {s : State} (hw : s.nWrite = 0) (hn : s.nRead ≠ 0) : s.load = s.cfg.divRead := by
  rw [State.load, if_neg]
  rw [Bool.or_eq_true, Bool.not_eq_true', ← Bool.not_eq_true, bw_iff, br_iff]
  tauto

/-- Settles O27: the reload of an enabled edge, with the selected load. -/
theorem divisorFollowsTheCounters : Obligations.DivisorFollowsTheCounters := by
  intro s t hr h he hce
  obtain ⟨-, -, -, hreload⟩ := clockGeneratorMoves s t hr h
  obtain ⟨hcnt, hbias, -⟩ := hreload hce he
  refine ⟨fun hw => ?_, fun hw hn => ?_⟩
  · rw [← load_of_write hw]
    exact ⟨hcnt, hbias⟩
  · rw [← load_of_read hw hn]
    exact ⟨hcnt, hbias⟩

/-! ## The shift register -/

/-- Settles O31: the shift clause of the register's move, read away from the vacated end and at it. -/
theorem shiftMovesTowardTheOutput : Obligations.ShiftMovesTowardTheOutput := by
  intro s t hr h
  obtain ⟨-, -, ⟨-, hshift, -, hkeep⟩, -⟩ := coreMoved_of_step hr h
  refine ⟨fun he hf hb => ?_, fun he hs => hkeep hs (.inl he)⟩
  have hbit := hshift he hf hb (not_start_of_bits hf hb)
  refine ⟨fun hmsb => ?_, fun hlsb => ?_⟩
  · simp only [hmsb, Bool.false_eq_true, if_false] at hbit
    exact ⟨hbit 0 (by decide), fun k hk => hbit (k + 1) (by omega)⟩
  · simp only [hlsb, if_true] at hbit
    exact ⟨hbit 31 (by decide), fun k hk => (hbit k (by omega)).trans (by rw [if_neg hk.ne])⟩

/-! ## Start in the literal variant, and in a done cycle -/

/-- Settles O34: the start comes without an edge, and without an edge the sequencer does not move. -/
theorem literalStartLosesTheTransfer : Obligations.LiteralStartLosesTheTransfer := by
  intro s t hp hr h
  have hstart : s.start = true ↔ s.pending = true ∧ (s.fsm = .idle ∨ s.done = true) := by
    simp [start_iff, hp]
  obtain ⟨-, ⟨hnoedge, -⟩, -⟩ := coreMoved_of_step hr h
  refine ⟨hstart, fun hf he hpend => ?_⟩
  obtain ⟨-, hload⟩ := startHandsThePendingTransferOver s t hr h
  obtain ⟨-, hw, hn, hsr, hclear, -⟩ := hload (hstart.2 ⟨hpend, .inl hf⟩)
  exact ⟨(hnoedge he).trans hf, hsr, hw, hn, hclear⟩

/-- Settles O36: the done cycle accepts the write, and the start in it takes the old buffer. -/
theorem chainedDataWriteKeepsPending : Obligations.ChainedDataWriteKeepsPending := by
  intro w s h hd hp
  obtain ⟨t, ht, hack, hdata, hpend, hcore, -⟩ := (writeDataQueuesATransferOrStalls w s h).1 (.inr hd)
  obtain ⟨-, ⟨-, -, -, -, -, hgo, -⟩, ⟨hsr, -⟩, -, -, hcapture, -⟩ := hcore
  obtain ⟨he, -, hf⟩ := (done_iff s).1 hd
  have hs : s.start = true := (start_iff s).2 ⟨hp, .inr hd⟩
  have hsetup : t.fsm = .setup := hgo he hf (.inr hs)
  exact ⟨t, ht, hack, hs, hsr hs, hcapture.trans (if_pos hd), hdata, hpend, hsetup,
    (cs_iff s).2 (by simp [hf]), (cs_iff t).2 (by simp [hsetup])⟩

/-! ## Reset -/

theorem stepNext_of_reset {s : State} (h : s.pinIn.rst = true) : stepNext s = advance (resetCycle s) := by
  obtain ⟨-, ht⟩ | ⟨hr, -⟩ := step_next_cases (step_eq_stepNext s)
  · exact ht
  · simp [h] at hr

/-- Settles O38: the step is the reset cycle, whose state is that of reset but for the environment's fields. -/
theorem resetCycleRestoresTheResetState : Obligations.ResetCycleRestoresTheResetState := by
  intro s h
  have hpins : PinsShown s (stepNext s) := (step_outputsOf (step_eq_stepNext s)).pinsShown
  refine ⟨_, step_eq_stepNext s, ?_⟩
  rw [stepNext_of_reset h] at hpins ⊢
  exact ⟨rfl, hpins, rfl, rfl, rfl, rfl, rfl⟩

/-- Settles O39: the reset state is one state, and every clause is evaluated on it. -/
theorem resetStateReadsAsTheSpecSays : Obligations.ResetStateReadsAsTheSpecSays := by
  have hsignals : State.reset.edge = true ∧ State.reset.cgCe = false := by decide
  exact ⟨hsignals.1, hsignals.2, rfl, rfl, rfl, rfl, ⟨_, exec_eq _ _, by decide⟩, ⟨_, exec_eq _ _, by decide⟩,
    ⟨_, exec_eq _ _, by decide⟩⟩

end Sys2Proof.Machine
end

section
/-! The invariants of every step (spec/46_cycle_step.md R295, R296), and what follows from them in one step. -/

namespace Sys2Proof.Machine

/-! ## The counters between starts -/

/-- Without a start and outside a counted edge the counters keep their values (R174). -/
theorem stepNext_counts_kept {s : State} (hr : s.pinIn.rst = false) (hs : s.start = false)
    (h : ¬ countEdge s ∨ (s.nWrite = 0 ∧ s.nRead = 0)) :
    (stepNext s).nWrite = s.nWrite ∧ (stepNext s).nRead = s.nRead := by
  obtain ⟨-, -, -, ⟨-, -, -, hkeep⟩, -⟩ := stepNext_coreMoved hr
  exact hkeep hs h

theorem not_countEdge_of_not_edge {s : State} (h : s.edge = false) : ¬ countEdge s := fun ⟨he, _⟩ => by
  simp [h] at he

theorem not_countEdge_of_wait {s : State} (h : s.fsm = .wait) : ¬ countEdge s := by
  simp [countEdge, h]

/-- Under START_REQUIRES_EDGE = true a start is an edge in IDLE or in HOLD, after which a transfer is active. -/
theorem stepNext_active_of_start {s : State} (hp : s.par.startRequiresEdge = true) (hr : s.pinIn.rst = false)
    (h : s.start = true) : (stepNext s).fsm ≠ .idle := by
  have he := edge_of_start hp h
  obtain ⟨-, ⟨-, -, hstart, -, -, hgo, -⟩, -⟩ := stepNext_coreMoved hr
  obtain ⟨-, hf | hd⟩ := start_cases h
  · rw [hstart he hf h]
    split <;> simp
  · rw [hgo he ((done_iff s).1 hd).2.2 (.inr h)]
    simp

/-- The sequencer is in IDLE after a step only where it was already, or where no bit was left (R190, R193, R194). -/
theorem idle_or_bdone_of_stepNext_idle {s : State} (hr : s.pinIn.rst = false) (h : (stepNext s).fsm = .idle) :
    s.fsm = .idle ∨ s.bdone = true := by
  obtain ⟨-, ⟨hnoedge, -, -, hsetup, -, hgo, hwait, -⟩, -⟩ := stepNext_coreMoved hr
  cases he : s.edge with
  | false => exact .inl ((hnoedge he).symm.trans h)
  | true =>
    by_contra hnot
    obtain ⟨hidle, hb⟩ := not_or.1 hnot
    cases hf : s.fsm with
    | idle => exact hidle hf
    | setup => simp [hsetup he hf] at h
    | hold => simp [hgo he hf (.inl (by simpa using hb))] at h
    | wait => simp [hwait he hf, hb] at h

/-! ## The invariant -/

theorem inv_resetWith {p : Params} (h : p.wellFormed = true) : Inv (State.resetWith p) :=
  ⟨h, Nat.zero_le _, fun _ _ => ⟨rfl, rfl⟩, fun _ => ⟨rfl, rfl⟩⟩

theorem clockParity_resetWith (p : Params) : ClockParity (State.resetWith p) :=
  ⟨fun _ => rfl, nofun, nofun, nofun, nofun⟩

/-- Settles O40: the reset state's own values. -/
theorem invHoldsAtReset : Obligations.InvHoldsAtReset :=
  ⟨inv_resetWith (by decide), fun _ => inv_resetWith, clockParity_resetWith⟩

/-- The invariant speaks of no field of the environment. -/
theorem Inv.resetCycle {s : State} (h : s.par.wellFormed = true) : Inv (advance (resetCycle s)) :=
  ⟨h, Nat.zero_le _, fun _ _ => ⟨rfl, rfl⟩, fun _ => ⟨rfl, rfl⟩⟩

/-- A cycle of the generator leaves the countdown at most 127: it is loaded with a halved load only (R295.1). -/
theorem ClockGen.cnt_next_le {g : ClockGen} (h : g.cnt.toNat ≤ 127) (ce : Bool) (load : Div) (phase : Bool) :
    (g.next ce load phase).cnt.toNat ≤ 127 := by
  cases ce with
  | false => simpa [ClockGen.next] using h
  | true =>
    cases he : g.edge with
    | false =>
      by_cases hc : g.cnt = 0#8
      · have hb : g.bias = true := by simpa [ClockGen.edge, ClockGen.zero, hc] using he
        simp [ClockGen.next, ClockGen.zero, hc, hb]
      · have hdown : (g.cnt - 1#8).toNat ≤ 127 := by bv_omega
        simpa [ClockGen.next, ClockGen.zero, hc] using hdown
    | true =>
      rw [ClockGen.next_of_edge he, BitVec.toNat_ushiftRight, Nat.shiftRight_eq_div_pow]
      have := load.isLt
      omega

/-- Under ATOMIC a step without reset touches neither the adapter's registers nor the bus fault (R45, R325). -/
theorem stepNext_of_atomic {s : State} (h : s.par.busAdapter = .atomic) (hr : s.pinIn.rst = false) :
    (stepNext s).wb = s.wb ∧ (stepNext s).faultBus = s.faultBus := by
  cases hp : s.presented with
  | some i =>
    rw [stepNext_of_presented hr hp]
    obtain ⟨-, hfault, -⟩ := accessNext_restKept i s
    exact ⟨accessNext_wb_of_atomic h i, hfault⟩
  | none =>
    rw [stepNext_of_not_presented hr hp]
    obtain ⟨-, -, -, -, -, -, hatomic, -⟩ := idleCycle_spec s
    obtain ⟨hwb, hfault, -⟩ := hatomic h
    exact ⟨hwb, hfault⟩

/-- The counters are 0 in IDLE after a step (R295.2): the step comes from IDLE, or from a state with no bit left, and
starts no transfer. -/
theorem stepNext_counts_of_idle {s : State} (hi : Inv s) (hr : s.pinIn.rst = false)
    (hp : s.par.startRequiresEdge = true) (h : (stepNext s).fsm = .idle) :
    (stepNext s).nWrite = 0 ∧ (stepNext s).nRead = 0 := by
  have hs : s.start = false := by
    by_contra hs
    exact stepNext_active_of_start hp hr (by simpa using hs) h
  have hzero : s.nWrite = 0 ∧ s.nRead = 0 := by
    obtain hf | hb := idle_or_bdone_of_stepNext_idle hr h
    · exact hi.idle hp hf
    · exact (bdone_iff s).1 hb
  obtain ⟨hw, hn⟩ := stepNext_counts_kept hr hs (.inr hzero)
  exact ⟨hw.trans hzero.1, hn.trans hzero.2⟩

/-- Settles O41: reset gives the reset state's values, and every other step keeps each part. -/
theorem everyStepKeepsInv : Obligations.EveryStepKeepsInv := by
  intro s t hi h
  cases eq_stepNext h
  cases hr : s.pinIn.rst with
  | true =>
    rw [stepNext_of_reset hr]
    exact Inv.resetCycle hi.params
  | false =>
    refine ⟨by rw [stepNext_par, hi.params], ?_, fun hp hf => ?_, fun ha => ?_⟩
    · rw [(stepNext_coreFields hr).cg]
      exact ClockGen.cnt_next_le hi.cnt _ _ _
    · rw [stepNext_par] at hp
      exact stepNext_counts_of_idle hi hr hp hf
    · rw [stepNext_par] at ha
      obtain ⟨hwb, hfault⟩ := stepNext_of_atomic ha hr
      rw [hwb, hfault]
      exact hi.atomic ha

end Sys2Proof.Machine
end

section
/-! The clock parity (spec/45_pins.md section 3), and the other statements on the safety of one step
(spec/44_register_file.md section 4, spec/70_reset_and_hazards.md section 3). -/

namespace Sys2Proof.Machine

/-! ## The clock parity -/

/-- Without an edge a state's parity passes to the next one: state, level and phase stay, and so do the counters
in WAIT. -/
theorem clockParity_of_not_edge {s : State} (hp : ClockParity s) (hr : s.pinIn.rst = false) (he : s.edge = false)
    (hphase : (stepNext s).cfg.clkPhase = s.cfg.clkPhase ∨ (stepNext s).fsm = .idle) :
    ClockParity (stepNext s) := by
  obtain ⟨-, ⟨hnoedge, -⟩, -⟩ := stepNext_coreMoved hr
  have hf := hnoedge he
  have hclk : (stepNext s).cg.clk = s.cg.clk := by rw [stepNext_clk hr]; simp [he]
  have hkeep (h : s.fsm ≠ .idle) : (stepNext s).cfg.clkPhase = s.cfg.clkPhase :=
    hphase.resolve_right (hf ▸ h)
  constructor <;> intro h <;> rw [hf] at h
  · rw [hclk, hp.idle h]
  · rw [hclk, hp.setup h, hkeep (by simp [h])]
  · rw [hclk, hp.hold h, hkeep (by simp [h])]
  · rw [hclk, hp.wait h]
  · rw [hkeep (by simp [h])]
    intro hph
    have hb := (bdone_iff s).1 (hp.waitDone h hph)
    obtain ⟨hw, hn⟩ := stepNext_counts_kept hr (not_start_of_wait h) (.inr hb)
    exact (bdone_iff _).2 ⟨hw.trans hb.1, hn.trans hb.2⟩

/-- What the parity asks of a state of which the sequencer state, the level and the phase are known. -/
theorem clockParity_of_setup {t : State} (hf : t.fsm = .setup) (hc : t.cg.clk = t.cfg.clkPhase) : ClockParity t := by
  constructor <;> simp [hf, hc]

theorem clockParity_of_hold {t : State} (hf : t.fsm = .hold) (hc : t.cg.clk = !t.cfg.clkPhase) : ClockParity t := by
  constructor <;> simp [hf, hc]

theorem clockParity_of_idle {t : State} (hf : t.fsm = .idle) (hc : t.cg.clk = true) : ClockParity t := by
  constructor <;> simp [hf, hc]

theorem clockParity_of_wait {t : State} (hf : t.fsm = .wait) (hc : t.cg.clk = false)
    (hb : t.cfg.clkPhase = false → t.bdone = true) : ClockParity t := by
  constructor <;> simp [hf, hc]
  exact hb

theorem bits_left_or_start {s : State} (h : ¬ (s.bdone = true ∧ s.start = false)) :
    s.bdone = false ∨ s.start = true :=
  (Decidable.not_and_iff_or_not.1 h).imp Bool.eq_false_of_not_eq_true Bool.eq_true_of_not_eq_false

/-- At an edge the level toggles with the sequencer's move, state by state (R296). -/
theorem clockParity_of_edge {s : State} (hp : ClockParity s) (hr : s.pinIn.rst = false) (he : s.edge = true)
    (hphase : (stepNext s).cfg.clkPhase = s.cfg.clkPhase ∨ (stepNext s).fsm = .idle) :
    ClockParity (stepNext s) := by
  obtain ⟨-, ⟨-, hidle, hstart, hsetup, hend, hgo, hwait, -⟩, -⟩ := stepNext_coreMoved hr
  have hkeep {f : Fsm} (h : (stepNext s).fsm = f) (hf : f ≠ .idle) : (stepNext s).cfg.clkPhase = s.cfg.clkPhase :=
    hphase.resolve_right (h ▸ hf)
  have htoggle (h : s.fsm ≠ .idle) : (stepNext s).cg.clk = !s.cg.clk := by
    rw [stepNext_clk hr, if_pos ⟨he, cgCe_of_active h⟩]
  cases hf : s.fsm with
  | idle =>
    cases hs : s.start with
    | false =>
      have hgate : s.cgCe = false := (cgCe_eq_false_iff s).2 ⟨hf, hs, he⟩
      refine clockParity_of_idle (hidle he hf hs) ?_
      rw [stepNext_clk hr, if_neg (by simp [hgate]), hp.idle hf]
    | true =>
      have hfall : (stepNext s).cg.clk = false := by
        rw [stepNext_clk hr, if_pos ⟨he, by simp [State.cgCe, hs]⟩, hp.idle hf, Bool.not_true]
      have hnext := hstart he hf hs
      cases hph : s.cfg.clkPhase with
      | false =>
        rw [hph] at hnext
        exact clockParity_of_setup hnext (by rw [hfall, hkeep hnext (by simp), hph])
      | true =>
        rw [hph] at hnext
        refine clockParity_of_wait hnext hfall ?_
        rw [hkeep hnext (by simp), hph]
        nofun
  | setup =>
    have hnext := hsetup he hf
    refine clockParity_of_hold hnext ?_
    rw [htoggle (by simp [hf]), hp.setup hf, hkeep hnext (by simp)]
  | hold =>
    have hlevel : (stepNext s).cg.clk = s.cfg.clkPhase := by
      rw [htoggle (by simp [hf]), hp.hold hf, Bool.not_not]
    by_cases hlast : s.bdone = true ∧ s.start = false
    · obtain ⟨hb, hs⟩ := hlast
      have hnext := hend he hf hb hs
      cases hph : s.cfg.clkPhase with
      | true =>
        rw [hph] at hnext hlevel
        exact clockParity_of_idle hnext hlevel
      | false =>
        rw [hph] at hnext hlevel
        obtain ⟨hw, hn⟩ := stepNext_counts_kept hr hs (.inr ((bdone_iff s).1 hb))
        refine clockParity_of_wait hnext hlevel fun _ => ?_
        rwa [bdone_iff, hw, hn, ← bdone_iff]
    · have hnext := hgo he hf (bits_left_or_start hlast)
      refine clockParity_of_setup hnext ?_
      rw [hlevel, hkeep hnext (by simp)]
  | wait =>
    have hrise : (stepNext s).cg.clk = true := by
      rw [htoggle (by simp [hf]), hp.wait hf, Bool.not_false]
    have hnext := hwait he hf
    cases hb : s.bdone with
    | true =>
      rw [hb] at hnext
      exact clockParity_of_idle hnext hrise
    | false =>
      rw [hb] at hnext
      have hph : s.cfg.clkPhase = true := by
        by_contra hph
        simp [hp.waitDone hf (by simpa using hph)] at hb
      refine clockParity_of_setup hnext ?_
      rw [hrise, hkeep hnext (by simp), hph]

/-- Settles O42: reset gives the level of IDLE; every other step is one without an edge or one with it. -/
theorem everyStepKeepsTheClockParity : Obligations.EveryStepKeepsTheClockParity := by
  intro s t hp h hphase
  cases eq_stepNext h
  cases hr : s.pinIn.rst with
  | true =>
    rw [stepNext_of_reset hr]
    exact clockParity_of_idle rfl rfl
  | false =>
    cases he : s.edge with
    | false => exact clockParity_of_not_edge hp hr he hphase
    | true => exact clockParity_of_edge hp hr he hphase

/-- The level of the `clk` pin (R271). -/
theorem clkPin_level_of_idle {s : State} (h : s.cs = false) : s.clkPin.level = s.cfg.clkPolarity := by
  simp [State.clkPin, h]

theorem clkPin_level_of_low {s : State} (h : s.cg.clk = false) : s.clkPin.level = s.cfg.clkPolarity := by
  simp [State.clkPin, h]

/-- Where `cs` changes, the clock line is low on the active side of the change (R278). -/
theorem clk_low_where_cs_changes {s : State} (hp : ClockParity s) (hr : s.pinIn.rst = false) :
    (s.cs = false → (stepNext s).cs = true → (stepNext s).cg.clk = false) ∧
    (s.cs = true → (stepNext s).cs = false → s.cg.clk = false) := by
  obtain ⟨-, ⟨hnoedge, hidle, -, hsetup, hend, hgo, hwait, -⟩, -⟩ := stepNext_coreMoved hr
  have hcs (u : State) : u.cs = false ↔ u.fsm = .idle := by simp [State.cs]
  have he (h : (stepNext s).fsm ≠ s.fsm) : s.edge = true := by
    by_contra he
    exact h (hnoedge (by simpa using he))
  rw [hcs, hcs, cs_iff, cs_iff]
  refine ⟨fun hf ht => ?_, fun hf ht => ?_⟩
  · have he := he (hf ▸ ht)
    have hs : s.start = true := by
      by_contra hs
      exact ht (hidle he hf (by simpa using hs))
    rw [stepNext_clk hr, if_pos ⟨he, by simp [State.cgCe, hs]⟩, hp.idle hf, Bool.not_true]
  · have he := he (ht ▸ Ne.symm hf)
    cases hf' : s.fsm with
    | idle => exact absurd hf' hf
    | setup => simp [hsetup he hf'] at ht
    | hold =>
      by_cases hlast : s.bdone = true ∧ s.start = false
      · have hph : s.cfg.clkPhase = true := by simpa [hend he hf' hlast.1 hlast.2] using ht
        rw [hp.hold hf', hph, Bool.not_true]
      · simp [hgo he hf' (bits_left_or_start hlast)] at ht
    | wait => exact hp.wait hf'

/-- Settles O43: the clock line is gated on one side of the change and low on the other. -/
theorem clockPinIsQuietWhenChipSelectChanges : Obligations.ClockPinIsQuietWhenChipSelectChanges := by
  intro s t hp hr h hpol hcs
  cases eq_stepNext h
  obtain ⟨hrise, hfall⟩ := clk_low_where_cs_changes hp hr
  cases hs : s.cs with
  | false =>
    have ht : (stepNext s).cs = true := by simpa [hs] using hcs
    rw [clkPin_level_of_idle hs, clkPin_level_of_low (hrise hs ht), hpol]
  | true =>
    have ht : (stepNext s).cs = false := by simpa [hs] using hcs
    rw [clkPin_level_of_low (hfall hs ht), clkPin_level_of_idle ht, hpol]

/-! ## A pending transfer -/

/-- An acknowledged `data` write is performed, under either adapter. -/
theorem step_of_acknowledged_wrData {s t : State} {w : Word} (hr : s.pinIn.rst = false) (h : step s = .next t)
    (hp : s.presented = some (.wrData w)) (hack : t.out.ack = true) : t.pending = true ∧ t.dataWrite = w := by
  rw [eq_stepNext h, stepNext_of_presented hr hp] at hack ⊢
  have hperformed : accessPerformed (.wrData w) s = true := (accessNext_ack _ s).symm.trans hack
  rw [accessNext_of_performed hperformed]
  exact ⟨rfl, rfl⟩

/-- A pending transfer stays pending until its start. -/
theorem stepNext_pending_of_not_start {s : State} (hr : s.pinIn.rst = false) (hp : s.pending = true)
    (hs : s.start = false) : (stepNext s).pending = true := by
  obtain hm | hset := stepNext_pending hr
  · rw [hm, hs]
    exact hp
  · exact hset

/-- Settles O44: only a start clears `pending`, and a start leaves the sequencer active. -/
theorem pendingTransferIsNeverLost : Obligations.PendingTransferIsNeverLost := by
  intro s t hp hr h
  have hack (w : Word) := step_of_acknowledged_wrData (w := w) hr h
  cases eq_stepNext h
  have hactive (hs : s.start = true) : (stepNext s).cs = true := (cs_iff _).2 (stepNext_active_of_start hp hr hs)
  refine ⟨fun hpend => ?_, hactive, fun hcs hcs' => ?_, hack⟩
  · cases hs : s.start with
    | true => exact .inr (hactive hs)
    | false => exact .inl (stepNext_pending_of_not_start hr hpend hs)
  · have hs : s.start = false := by
      by_contra hs
      simp [hactive (by simpa using hs)] at hcs'
    have hidle : (stepNext s).fsm = .idle := by simpa [State.cs] using hcs'
    exact ⟨hs, (idle_or_bdone_of_stepNext_idle hr hidle).resolve_left ((cs_iff s).1 hcs)⟩

/-! ## The half-duplex release -/

/-- Once no write bit is left, none comes before the next start. -/
theorem stepNext_nWrite_of_zero {s : State} (hr : s.pinIn.rst = false) (hs : s.start = false) (h : s.nWrite = 0) :
    (stepNext s).nWrite = 0 := by
  rw [(stepNext_coreFields hr).nWrite, coreNext_nWrite]
  simp [State.nWriteNext, hs, State.bw, h]

/-- Settles O45: the edge is a shift edge, which takes "no write bit left" into the echo, so `oe` falls. -/
theorem mosiIsReleasedForTheReadPhase : Obligations.MosiIsReleasedForTheReadPhase := by
  intro s t hr h he hf hw hn
  have hb : s.bdone = false := by
    rw [← Bool.not_eq_true, bdone_iff]
    exact fun ⟨_, hn'⟩ => hn hn'
  obtain ⟨hwrite0, -⟩ := writeEchoChangesAtShiftEdgesOnly s t hr h
  obtain ⟨-, ⟨-, -, -, -, -, hgo, -⟩, -⟩ := coreMoved_of_step hr h
  refine ⟨hgo he hf (.inl hb), fun hhalf => ?_⟩
  cases eq_stepNext h
  have hoe : (stepNext s).oe = false := by
    rw [← Bool.not_eq_true, oe_iff, hwrite0 he hf hb,
      stepNext_nWrite_of_zero hr (not_start_of_bits hf hb) hw, hw]
    simp
  simp [State.mosiPin, hhalf, hoe]

end Sys2Proof.Machine
end

section
/-! Bounded liveness (spec/46_cycle_step.md R295.6, spec/60_exceptions.md R327) and completion by polling
(spec/70_reset_and_hazards.md R362): arguments over runs, by what one step does to the cycles that remain. -/

namespace Sys2Proof.Machine

/-- A cycle without an edge brings the next edge one cycle nearer: the generator is enabled then, in every state. -/
theorem stepNext_remaining {s : State} (hr : s.pinIn.rst = false) (he : s.edge = false) :
    (stepNext s).cg.remaining + 1 = s.cg.remaining := by
  have hce : s.cgCe = true := by simp [State.cgCe, he]
  rw [(stepNext_coreFields hr).cg, coreNext_cg, hce]
  exact (ClockGen.next_of_not_edge he _ _).1

theorem stepNext_fsm_of_not_edge {s : State} (hr : s.pinIn.rst = false) (he : s.edge = false) :
    (stepNext s).fsm = s.fsm := by
  obtain ⟨-, ⟨hnoedge, -⟩, -⟩ := stepNext_coreMoved hr
  exact hnoedge he

/-! ## A pending transfer starts -/

/-- In IDLE, under START_REQUIRES_EDGE = true, a pending transfer starts exactly at an edge. -/
theorem start_iff_edge_of_waiting {s : State} (hp : s.par.startRequiresEdge = true) (hf : s.fsm = .idle)
    (hpend : s.pending = true) : s.start = true ↔ s.edge = true := by
  have hd : ¬ s.done = true := fun h => by
    obtain ⟨-, -, hhold⟩ := (done_iff s).1 h
    simp [hf] at hhold
  rw [start_iff]
  simp [hp, hf, hpend, hd]

/-- While the countdown lasts, the transfer waits in IDLE. -/
theorem after_waiting {s : State} (hp : s.par.startRequiresEdge = true) (hf : s.fsm = .idle)
    (hpend : s.pending = true) (hrst : s.resetFree s.cg.remaining) {k : Nat} (hk : k ≤ s.cg.remaining) :
    (s.after k).fsm = .idle ∧ (s.after k).pending = true ∧ (s.after k).cg.remaining + k = s.cg.remaining := by
  induction k with
  | zero => exact ⟨hf, hpend, rfl⟩
  | succ n ih =>
    obtain ⟨hf', hpend', hrem⟩ := ih (by omega)
    have hr := hrst n (by omega)
    have he : (s.after n).edge = false := (ClockGen.remaining_pos_iff _).1 (by omega)
    have hs : (s.after n).start = false := by
      rw [← Bool.not_eq_true, start_iff_edge_of_waiting (by rw [after_par, hp]) hf' hpend', he]
      simp
    have hrem' := stepNext_remaining hr he
    rw [after_succ]
    exact ⟨(stepNext_fsm_of_not_edge hr he).trans hf', stepNext_pending_of_not_start hr hpend' hs, by omega⟩

/-- Settles O52: the transfer waits while the countdown lasts, and its end is the edge that starts it. -/
theorem pendingTransferStartsInTime : Obligations.PendingTransferStartsInTime := by
  intro s hp hf hpend hrst
  have hstart {k : Nat} (hk : k ≤ s.cg.remaining) : (s.after k).start = true ↔ k = s.cg.remaining := by
    obtain ⟨hf', hpend', hrem⟩ := after_waiting hp hf hpend hrst hk
    rw [start_iff_edge_of_waiting (by rw [after_par, hp]) hf' hpend', State.edge, ← ClockGen.remaining_eq_zero_iff]
    omega
  refine ⟨fun k hk => ?_, (hstart le_rfl).2 rfl⟩
  rw [← Bool.not_eq_true, hstart hk.le]
  exact hk.ne

/-! ## A transfer ends -/

/-- The bits left (R171). -/
def State.bitsLeft (s : State) : Nat := s.nWrite.toNat + s.nRead.toNat

theorem bitsLeft_eq_zero_iff (s : State) : s.bitsLeft = 0 ↔ s.bdone = true := by
  simp [State.bitsLeft, bdone_iff, ← BitVec.toNat_inj]

theorem bitsLeft_pos_iff (s : State) : 0 < s.bitsLeft ↔ s.bdone = false := by
  rw [Nat.pos_iff_ne_zero, Ne, bitsLeft_eq_zero_iff, Bool.not_eq_true]

/-- A counted edge takes one bit, as long as one is left (R173). -/
theorem stepNext_bitsLeft_of_countEdge {s : State} (hr : s.pinIn.rst = false) (h : countEdge s)
    (hb : s.bdone = false) : (stepNext s).bitsLeft + 1 = s.bitsLeft := by
  obtain ⟨hwrite, hread, -⟩ := writeBitsAreCountedBeforeReadBits s _ hr (step_eq_stepNext s) h
  have hzero : ¬ (s.nWrite = 0 ∧ s.nRead = 0) := by rw [← bdone_iff, hb]; simp
  simp only [State.bitsLeft]
  by_cases hw : s.nWrite = 0
  · obtain ⟨hw', hn'⟩ := hread hw fun hn => hzero ⟨hw, hn⟩
    simp only [hw', hw]
    omega
  · obtain ⟨hw', hn'⟩ := hwrite hw
    rw [hn']
    omega

theorem stepNext_bitsLeft_kept {s : State} (hr : s.pinIn.rst = false) (hs : s.start = false)
    (h : ¬ countEdge s ∨ s.bdone = true) : (stepNext s).bitsLeft = s.bitsLeft := by
  rw [bdone_iff] at h
  obtain ⟨hw, hn⟩ := stepNext_counts_kept hr hs h
  rw [State.bitsLeft, hw, hn, State.bitsLeft]

/-- The edges of an active transfer up to the done pulse or IDLE, that edge included: two for each bit left, and the
last one in HOLD. Which of a bit's two edges counts it is BITCOUNT_ENABLE's choice. -/
def edgesLeft (mode : BitcountEnable) (f : Fsm) (n : Nat) : Nat :=
  match f, mode with
  | .idle, _ => 0
  | .hold, _ => 2 * n + 1
  | .setup, .shift => 2 * n + 2
  | .setup, .sample => if n = 0 then 2 else 2 * n
  | .wait, _ => 2 * n + 3

/-- The most cycles up to the done pulse or IDLE: 129 for each half-period after the present one. -/
def State.cyclesLeft (s : State) : Nat :=
  (edgesLeft s.par.bitcountEnable s.fsm s.bitsLeft - 1) * 129 + s.cg.remaining

/-- A start comes in IDLE and with the done pulse only. -/
theorem not_start_of_active {s : State} (hf : s.fsm ≠ .idle) (hd : s.done = false) : s.start = false := by
  by_contra hs
  obtain ⟨-, h | h⟩ := start_cases (by simpa using hs)
  · exact hf h
  · simp [hd] at h

/-- A HOLD edge that is no done pulse has bits left (R202). -/
theorem bits_left_of_not_done {s : State} (he : s.edge = true) (hf : s.fsm = .hold) (hd : s.done = false) :
    s.bdone = false := by
  by_contra hb
  simp [(done_iff s).2 ⟨he, by simpa using hb, hf⟩] at hd

/-- An edge of an active transfer that is neither its done pulse nor its return to IDLE leaves fewer edges. -/
theorem edgesLeft_stepNext {s : State} (hr : s.pinIn.rst = false) (he : s.edge = true) (hd : s.done = false)
    (hf : s.fsm ≠ .idle) (hf' : (stepNext s).fsm ≠ .idle) :
    edgesLeft s.par.bitcountEnable (stepNext s).fsm (stepNext s).bitsLeft + 1 ≤
      edgesLeft s.par.bitcountEnable s.fsm s.bitsLeft ∧
    0 < edgesLeft s.par.bitcountEnable (stepNext s).fsm (stepNext s).bitsLeft := by
  obtain ⟨-, ⟨-, -, -, hsetup, -, hgo, hwait, -⟩, -⟩ := stepNext_coreMoved hr
  have hs := not_start_of_active hf hd
  cases hfsm : s.fsm with
  | idle => exact absurd hfsm hf
  | setup =>
    have hnext := hsetup he hfsm
    cases hmode : s.par.bitcountEnable with
    | sample =>
      have hcount : countEdge s := ⟨he, .inl ⟨hmode, hfsm⟩⟩
      cases hb : s.bdone with
      | true =>
        have hzero := (bitsLeft_eq_zero_iff s).2 hb
        simp [hnext, edgesLeft, stepNext_bitsLeft_kept hr hs (.inr hb), hzero]
      | false =>
        have hcounted := stepNext_bitsLeft_of_countEdge hr hcount hb
        have hpos : s.bitsLeft ≠ 0 := by omega
        simp only [hnext, edgesLeft, if_neg hpos]
        omega
    | shift =>
      have hkept := stepNext_bitsLeft_kept hr hs (.inl (by simp [countEdge, hmode, hfsm]))
      simp only [hnext, edgesLeft, hkept]
      omega
  | hold =>
    have hb := bits_left_of_not_done he hfsm hd
    have hnext := hgo he hfsm (.inl hb)
    have hpos : s.bitsLeft ≠ 0 := ((bitsLeft_pos_iff s).2 hb).ne'
    cases hmode : s.par.bitcountEnable with
    | sample =>
      have hkept := stepNext_bitsLeft_kept hr hs (.inl (by simp [countEdge, hmode, hfsm]))
      simp only [hnext, edgesLeft, hkept, if_neg hpos]
      omega
    | shift =>
      have hcounted := stepNext_bitsLeft_of_countEdge hr ⟨he, .inr ⟨hmode, hfsm, hb, hs⟩⟩ hb
      simp only [hnext, edgesLeft]
      omega
  | wait =>
    have hb : s.bdone = false := by
      by_contra hb
      rw [hwait he hfsm, if_pos (by simpa using hb)] at hf'
      exact hf' rfl
    have hnext := (hwait he hfsm).trans (if_neg (by simp [hb]))
    have hpos : s.bitsLeft ≠ 0 := ((bitsLeft_pos_iff s).2 hb).ne'
    have hkept := stepNext_bitsLeft_kept hr hs (.inl (not_countEdge_of_wait hfsm))
    cases hmode : s.par.bitcountEnable with
    | sample =>
      simp only [hnext, edgesLeft, hkept, if_neg hpos]
      omega
    | shift =>
      simp only [hnext, edgesLeft, hkept]
      omega

theorem edgesLeft_le (mode : BitcountEnable) (f : Fsm) (n : Nat) : edgesLeft mode f n ≤ 2 * n + 3 := by
  cases f with
  | setup =>
    cases mode with
    | sample => simp only [edgesLeft]; split <;> omega
    | shift => simp only [edgesLeft]; omega
  | idle | hold | wait => simp only [edgesLeft]; omega

/-- A reload leaves at most 128 cycles to the next edge (R135, R137). -/
theorem stepNext_remaining_le {s : State} (hr : s.pinIn.rst = false) (hf : s.fsm ≠ .idle) (he : s.edge = true) :
    (stepNext s).cg.remaining ≤ 128 := by
  rw [(stepNext_coreFields hr).cg, coreNext_cg, cgCe_of_active hf, ClockGen.remaining_next_of_edge he]
  have hload := s.load.isLt
  have hbias := Bool.toNat_le (s.cg.next true s.load s.biasIn).bias
  omega

/-- Until the done pulse or IDLE every cycle uses up at least one of the cycles left. -/
theorem cyclesLeft_stepNext {s : State} (hr : s.pinIn.rst = false) (hf : s.fsm ≠ .idle) (hd : s.done = false)
    (hf' : (stepNext s).fsm ≠ .idle) : (stepNext s).cyclesLeft + 1 ≤ s.cyclesLeft := by
  rw [State.cyclesLeft, State.cyclesLeft, stepNext_par]
  cases he : s.edge with
  | false =>
    have hkept := stepNext_bitsLeft_kept hr (not_start_of_active hf hd) (.inl (not_countEdge_of_not_edge he))
    rw [stepNext_fsm_of_not_edge hr he, hkept, ← stepNext_remaining hr he]
    omega
  | true =>
    obtain ⟨hless, hpos⟩ := edgesLeft_stepNext hr he hd hf hf'
    have hrem := stepNext_remaining_le hr hf he
    omega

/-- A run that reaches neither the done pulse nor IDLE uses up the cycles left one by one. -/
theorem cyclesLeft_after {s : State} {k : Nat} (hrst : s.resetFree k)
    (hnot : ∀ j, j ≤ k → (s.after j).fsm ≠ .idle ∧ (s.after j).done = false) :
    (s.after k).cyclesLeft + k ≤ s.cyclesLeft := by
  induction k with
  | zero => exact le_rfl
  | succ n ih =>
    have hprior := ih (fun j hj => hrst j (by omega)) fun j hj => hnot j (by omega)
    obtain ⟨hf, hd⟩ := hnot n (by omega)
    have hstep := cyclesLeft_stepNext (hrst n (by omega)) hf hd (hnot (n + 1) le_rfl).1
    rw [after_succ]
    omega

/-- In a state of the invariant the cycles left fit into R327's bound. -/
theorem cyclesLeft_lt {s : State} (hi : Inv s) : s.cyclesLeft < 2 * (s.bitsLeft + 2) * 129 := by
  have hedges := edgesLeft_le s.par.bitcountEnable s.fsm s.bitsLeft
  have hcnt := hi.cnt
  have hbias := Bool.toNat_le s.cg.bias
  rw [State.cyclesLeft, ClockGen.remaining]
  omega

/-- Settles O53: a run that avoided the done pulse and IDLE for that long would have used up more cycles than it had. -/
theorem everyTransferEnds : Obligations.EveryTransferEnds := by
  intro s hi hrst
  by_contra hnever
  have hnot (j : Nat) (hj : j ≤ 2 * (s.bitsLeft + 2) * 129) :
      (s.after j).fsm ≠ .idle ∧ (s.after j).done = false := by
    refine ⟨fun hf => hnever ⟨j, hj, .inl hf⟩, ?_⟩
    by_contra hd
    exact hnever ⟨j, hj, .inr (by simpa using hd)⟩
  have hused := cyclesLeft_after hrst hnot
  have hbound := cyclesLeft_lt hi
  rw [State.bitsLeft] at hbound
  omega

/-! ## Completion by polling -/

/-- Without a start a pending transfer stays pending over a run. -/
theorem after_pending {s : State} {k : Nat} (hp : s.pending = true) (hrst : s.resetFree k)
    (hs : ∀ j, j < k → (s.after j).start = false) : (s.after k).pending = true := by
  induction k with
  | zero => exact hp
  | succ n ih =>
    have hp' := ih (fun j hj => hrst j (by omega)) fun j hj => hs j (by omega)
    exact stepNext_pending_of_not_start (hrst n (by omega)) hp' (hs n (by omega))

/-- Without a further done pulse the captured word stays (R242). -/
theorem after_dataRead {s : State} {m k : Nat} (hmk : m < k) (hrst : s.resetFree k) (hd : (s.after m).done = true)
    (hnot : ∀ l, m < l → l < k → (s.after l).done = false) : (s.after k).dataRead = (s.after m).sr := by
  have hstep (n : Nat) (hn : n < k) : (s.after (n + 1)).dataRead =
      if (s.after n).done then (s.after n).sr else (s.after n).dataRead :=
    (stepNext_coreFields (hrst n hn)).dataRead
  induction k, hmk using Nat.le_induction with
  | base => rw [hstep m (by omega), if_pos hd]
  | succ n hmn ih =>
    rw [hstep n (by omega), hnot n hmn (by omega)]
    exact ih (fun j hj => hrst j (by omega)) (fun l hl hl' => hnot l hl (by omega)) fun j hj => hstep j (by omega)

/-- Settles O54: `pending` can only have been cleared by a start, and `data_read` keeps the last capture. -/
theorem polledTransferHasCompleted : Obligations.PolledTransferHasCompleted := by
  intro s k _ hpend hrst _ hclear _
  refine ⟨?_, fun m hmk hd hnot => after_dataRead hmk hrst hd hnot⟩
  by_contra hnever
  have hs (j : Nat) (hj : j < k) : (s.after j).start = false := by
    by_contra hs
    exact hnever ⟨j, hj, by simpa using hs⟩
  simp [after_pending hpend hrst hs] at hclear

end Sys2Proof.Machine
end

section
/-! The register of one transfer (spec/41_shift_register.md section 3): bit by bit, on the wire, and in loopback. -/

namespace Sys2Proof.Machine

/-- The register as the next sample finds it: the write data before the first sample, and one shift on after each. -/
def beforeSample (lsbFirst : Bool) (d : Word) (ins : List Bool) : Word :=
  match ins with
  | [] => d
  | _ :: _ => srShift lsbFirst (afterSamples lsbFirst d ins)

theorem beforeSample_of_ne_nil (lsbFirst : Bool) (d : Word) {ins : List Bool} (h : ins ≠ []) :
    beforeSample lsbFirst d ins = srShift lsbFirst (afterSamples lsbFirst d ins) := by
  cases ins with
  | nil => exact absurd rfl h
  | cons => rfl

/-- One more input bit is one more sample of that register (R156). -/
theorem afterSamples_append (lsbFirst : Bool) (d : Word) (ins : List Bool) (i : Bool) :
    afterSamples lsbFirst d (ins ++ [i]) = srSample lsbFirst (beforeSample lsbFirst d ins) i := by
  cases ins with
  | nil => rfl
  | cons j rest => simp [afterSamples, beforeSample, List.foldl_append]

/-! ## Bit by bit -/

theorem getElem!_concat_of_lt {l : List Bool} {k : Nat} (i : Bool) (h : k < l.length) : (l ++ [i])[k]! = l[k]! := by
  simp [getElem!_def, List.getElem?_append_left h]

theorem getElem!_concat_length (l : List Bool) (i : Bool) : (l ++ [i])[l.length]! = i := by
  simp

/-- MSB first, the input bits stand below the write data, the last one in bit 0 (R159). -/
theorem getLsbD_afterSamples_msb (d : Word) {ins : List Bool} (hne : ins ≠ []) {k : Nat} (hk : k < 32) :
    (afterSamples false d ins).getLsbD k =
      if k < ins.length then ins[ins.length - 1 - k]! else d.getLsbD (k + 1 - ins.length) := by
  induction ins using List.reverseRecOn generalizing k with
  | nil => exact absurd rfl hne
  | append_singleton l i ih =>
    rw [afterSamples_append, getLsbD_srSample _ _ _ _ hk, List.length_append, List.length_singleton,
      Nat.add_sub_cancel]
    cases k with
    | zero => simp
    | succ k =>
      rw [if_neg (by simp), Nat.add_sub_add_right]
      by_cases hl : l = []
      · simp [hl, beforeSample]
      · rw [beforeSample_of_ne_nil _ _ hl, getLsbD_srShift _ _ _ hk]
        simp only [Bool.false_eq_true, if_false, Nat.add_one_ne_zero, Nat.add_sub_cancel, Nat.add_lt_add_iff_right]
        rw [ih hl (by omega)]
        split
        · rw [getElem!_concat_of_lt i (by omega), Nat.sub_right_comm, Nat.sub_sub]
        · rfl

/-- LSB first, they stand above it, the last one in bit 31 (R159). -/
theorem getLsbD_afterSamples_lsb (d : Word) {ins : List Bool} (hne : ins ≠ []) (hlen : ins.length ≤ 32) {k : Nat}
    (hk : k < 32) :
    (afterSamples true d ins).getLsbD k =
      if 32 - ins.length ≤ k then ins[k - (32 - ins.length)]! else d.getLsbD (k + ins.length - 1) := by
  induction ins using List.reverseRecOn generalizing k with
  | nil => exact absurd rfl hne
  | append_singleton l i ih =>
    rw [List.length_append, List.length_singleton] at hlen ⊢
    rw [afterSamples_append, getLsbD_srSample _ _ _ _ hk]
    by_cases hk31 : k = 31
    · have hlast : k - (32 - (l.length + 1)) = l.length := by omega
      rw [if_pos (by simpa using hk31), if_pos (by omega), hlast, getElem!_concat_length]
    · rw [if_neg (by simpa using hk31)]
      by_cases hl : l = []
      · have hlow : ¬ 31 ≤ k := by omega
        simp [hl, beforeSample, hlow]
      · rw [beforeSample_of_ne_nil _ _ hl, getLsbD_srShift _ _ _ hk]
        simp only [if_true, if_neg hk31]
        rw [ih hl (by omega) (by omega)]
        have hpos := List.length_pos_of_ne_nil hl
        have hindex : k - (32 - (l.length + 1)) = k + 1 - (32 - l.length) := by omega
        by_cases hin : 32 - l.length ≤ k + 1
        · rw [if_pos hin, if_pos (by omega), hindex, getElem!_concat_of_lt i (by omega)]
        · rw [if_neg hin, if_neg (by omega)]
          congr 1
          omega

theorem ne_nil_of_one_le_length {ins : List Bool} (h : 1 ≤ ins.length) : ins ≠ [] :=
  List.ne_nil_of_length_pos h

/-- Settles O49: the two formulas of R159. -/
theorem capturedValueOfATransfer : Obligations.CapturedValueOfATransfer := fun d _ hpos hlen _ hk =>
  ⟨getLsbD_afterSamples_msb d (ne_nil_of_one_le_length hpos) hk,
    getLsbD_afterSamples_lsb d (ne_nil_of_one_le_length hpos) hlen hk⟩

/-- After a shift the output shows the bit next to the register's end (R151, R153). -/
theorem serialOut_srShift (sr : Word) :
    serialOut false (srShift false sr) = sr.getLsbD 30 ∧ serialOut true (srShift true sr) = sr.getLsbD 1 :=
  ⟨getLsbD_srShift false sr 31 (by decide), getLsbD_srShift true sr 0 (by decide)⟩

/-- Settles O50: the bit next to the end is a write bit while fewer than 31 bits are sampled, and then the first
sampled one. -/
theorem wireBitsOfATransfer : Obligations.WireBitsOfATransfer := by
  refine fun d ins => ⟨⟨rfl, rfl⟩, fun hpos hlen => ?_, fun hlen => ?_⟩
  · obtain ⟨hmsb, -⟩ := capturedValueOfATransfer d ins hpos (by omega) 30 (by decide)
    obtain ⟨-, hlsb⟩ := capturedValueOfATransfer d ins hpos (by omega) 1 (by decide)
    rw [(serialOut_srShift _).1, (serialOut_srShift _).2, hmsb, hlsb, if_neg (by omega), if_neg (by omega),
      Nat.add_sub_cancel_left]
    exact ⟨rfl, rfl⟩
  · obtain ⟨hmsb, -⟩ := capturedValueOfATransfer d ins (by omega) (by omega) 30 (by decide)
    obtain ⟨-, hlsb⟩ := capturedValueOfATransfer d ins (by omega) (by omega) 1 (by decide)
    rw [(serialOut_srShift _).1, (serialOut_srShift _).2, hmsb, hlsb, hlen]
    exact ⟨rfl, rfl⟩

/-! ## Loopback -/

/-- After a loopback sample the two ends of the register agree: the sample copies one end to the other. -/
theorem getLsbD_afterLoopback_ends (lsb : Bool) (d : Word) (n : Nat) :
    (afterLoopback lsb d n).getLsbD 31 = (afterLoopback lsb d n).getLsbD 0 := by
  have hends (sr : Word) : (srSample lsb sr (serialOut lsb sr)).getLsbD 31 =
      (srSample lsb sr (serialOut lsb sr)).getLsbD 0 := by
    rw [getLsbD_srSample _ _ _ 31 (by decide), getLsbD_srSample _ _ _ 0 (by decide)]
    cases lsb <;> simp [serialOut]
  cases n with
  | zero => exact hends d
  | succ n => exact hends _

/-- How far a bit has moved from its place, counted upward modulo 31, after one loopback step. -/
def loopbackStep (lsb : Bool) : Nat := if lsb then 1 else 30

/-- One loopback step rotates bits 30:0 by one place, and bit 31 goes with bit 0 (R160). -/
theorem getLsbD_afterLoopback_succ (lsb : Bool) (d : Word) (n : Nat) {k : Nat} (hk : k < 32) :
    (afterLoopback lsb d (n + 1)).getLsbD k =
      (afterLoopback lsb d n).getLsbD ((k + loopbackStep lsb) % 31) := by
  have hends := getLsbD_afterLoopback_ends lsb d n
  simp only [afterLoopback]
  rw [getLsbD_srSample _ _ _ _ hk]
  generalize afterLoopback lsb d n = sr at hends ⊢
  cases lsb with
  | false =>
    rw [(serialOut_srShift sr).1, getLsbD_srShift _ _ _ hk]
    by_cases hk0 : k = 0
    · simp [hk0, loopbackStep]
    · have hmod : (k + 30) % 31 = k - 1 := by omega
      simp [hk0, loopbackStep, hmod]
  | true =>
    rw [(serialOut_srShift sr).2, getLsbD_srShift _ _ _ hk]
    obtain rfl | rfl | hlow : k = 31 ∨ k = 30 ∨ k < 30 := by omega
    · simp [loopbackStep]
    · simpa [loopbackStep] using hends
    · have hmod : (k + 1) % 31 = k + 1 := by omega
      have hk31 : k ≠ 31 := by omega
      simp [loopbackStep, hmod, hk31]

/-- After `n` steps every bit is the first loopback word's, `n` places on. -/
theorem getLsbD_afterLoopback (lsb : Bool) (d : Word) (n : Nat) {k : Nat} (hk : k < 32) :
    (afterLoopback lsb d n).getLsbD k = (afterLoopback lsb d 0).getLsbD ((k + loopbackStep lsb * n) % 31) := by
  induction n generalizing k with
  | zero =>
    rw [Nat.mul_zero, Nat.add_zero]
    obtain rfl | hlow : k = 31 ∨ k < 31 := by omega
    · exact getLsbD_afterLoopback_ends lsb d 0
    · rw [Nat.mod_eq_of_lt hlow]
  | succ n ih =>
    rw [getLsbD_afterLoopback_succ lsb d n hk, ih (by omega), Nat.mod_add_mod]
    congr 2
    ring

/-- Settles O51: 31 steps are a multiple of 31 places. -/
theorem loopbackIsPeriodic : Obligations.LoopbackIsPeriodic := by
  intro lsb d n
  apply BitVec.eq_of_getLsbD_eq
  intro k hk
  have hplaces : k + loopbackStep lsb * (n + 31) = k + loopbackStep lsb * n + 31 * loopbackStep lsb := by ring
  rw [getLsbD_afterLoopback lsb d (n + 31) hk, getLsbD_afterLoopback lsb d n hk, hplaces, Nat.add_mul_mod_self_left]

end Sys2Proof.Machine
end

section
/-! One whole transfer on the machine (spec/41_shift_register.md section 3, spec/43_sequencer.md section 3): an
invariant from its start edge to its done pulse, under BITCOUNT_ENABLE = SAMPLE. -/

namespace Sys2Proof.Machine

/-! ## The shift register's move as a whole word -/

theorem stepNext_sr_of_sample {s : State} (hr : s.pinIn.rst = false) (he : s.edge = true) (hf : s.fsm = .setup) :
    (stepNext s).sr = srSample s.cfg.lsbFirst s.sr (sampledInput s) := by
  rw [(stepNext_coreFields hr).sr, coreNext_sr, ← i_eq_sampledInput]
  simp [State.srNext, State.shift, State.sample, not_start_of_setup hf, he, hf]

theorem stepNext_sr_of_shift {s : State} (hr : s.pinIn.rst = false) (he : s.edge = true) (hf : s.fsm = .hold)
    (hb : s.bdone = false) : (stepNext s).sr = srShift s.cfg.lsbFirst s.sr := by
  rw [(stepNext_coreFields hr).sr, coreNext_sr]
  simp [State.srNext, State.shift, not_start_of_bits hf hb, he, hf, hb]

/-! ## The invariant of a transfer -/

/-- A transfer of `n` bits with the write data `d` is under way in `u`, and the bits `ins` have been sampled (R156): in
HOLD the register holds the last sample, in SETUP and WAIT it is ready for the next one. -/
structure TransferInv (lsbFirst : Bool) (d : Word) (n : Nat) (ins : List Bool) (u : State) : Prop where
  active : u.fsm ≠ .idle
  count : ins.length + u.bitsLeft = n
  bits : u.fsm ≠ .hold → u.bdone = false
  ready : u.fsm ≠ .hold → u.sr = beforeSample lsbFirst d ins
  sampled : u.fsm = .hold → ins ≠ [] ∧ u.sr = afterSamples lsbFirst d ins

/-- What the cycle from `u` samples (R154). -/
def State.taken (u : State) : List Bool := if u.edge = true ∧ u.fsm = .setup then [sampledInput u] else []

theorem samples_succ (s : State) (k : Nat) : s.samples (k + 1) = s.samples k ++ (s.after k).taken := by
  rw [State.samples, State.taken]
  split <;> simp

theorem taken_of_not_edge {u : State} (h : u.edge = false) : u.taken = [] := by
  simp [State.taken, h]

theorem taken_of_not_setup {u : State} (h : u.fsm ≠ .setup) : u.taken = [] := by
  simp [State.taken, h]

theorem taken_of_sample {u : State} (he : u.edge = true) (hf : u.fsm = .setup) : u.taken = [sampledInput u] :=
  if_pos ⟨he, hf⟩

/-- A start edge begins the transfer: the counters and the write data are loaded, and SETUP or WAIT follows. -/
theorem transferInv_of_start {s : State} (hr : s.pinIn.rst = false) (hs : s.start = true) (he : s.edge = true)
    (hn : 1 ≤ s.xferWriteLength.toNat + s.xferReadLength.toNat) (lsbFirst : Bool) :
    TransferInv lsbFirst s.dataWrite (s.xferWriteLength.toNat + s.xferReadLength.toNat) [] (stepNext s) := by
  obtain ⟨-, ⟨-, -, hidle, -, -, hchain, -⟩, ⟨hsr, -⟩, ⟨hload, -⟩, -⟩ := stepNext_coreMoved hr
  obtain ⟨hw, hrd⟩ := hload hs
  have hbits : (stepNext s).bitsLeft = s.xferWriteLength.toNat + s.xferReadLength.toNat := by
    rw [State.bitsLeft, hw, hrd]
  have hnext : (stepNext s).fsm ≠ .idle ∧ (stepNext s).fsm ≠ .hold := by
    obtain ⟨-, hf | hd⟩ := start_cases hs
    · rw [hidle he hf hs]
      split <;> simp
    · rw [hchain he ((done_iff s).1 hd).2.2 (.inr hs)]
      simp
  exact ⟨hnext.1, by rw [hbits, List.length_nil, Nat.zero_add],
    fun _ => (bitsLeft_pos_iff _).1 (by omega), fun _ => hsr hs, fun hf => absurd hf hnext.2⟩

/-- Until the done pulse every step goes on with the transfer, by what it samples. -/
theorem TransferInv.step {lsbFirst : Bool} {d : Word} {n : Nat} {ins : List Bool} {u : State}
    (h : TransferInv lsbFirst d n ins u) (hmode : u.par.bitcountEnable = .sample) (hr : u.pinIn.rst = false)
    (hd : u.done = false) (hlsb : u.cfg.lsbFirst = lsbFirst) :
    TransferInv lsbFirst d n (ins ++ u.taken) (stepNext u) := by
  obtain ⟨hactive, hcount, hbits, hready, hsampled⟩ := h
  obtain ⟨-, ⟨-, -, -, hsetup, -, hgo, hwait, -⟩, ⟨-, -, -, hkeep⟩, -⟩ := stepNext_coreMoved hr
  have hs := not_start_of_active hactive hd
  cases he : u.edge with
  | false =>
    have hf := stepNext_fsm_of_not_edge hr he
    have hleft := stepNext_bitsLeft_kept hr hs (.inl (not_countEdge_of_not_edge he))
    have hb : (stepNext u).bdone = u.bdone := by
      rw [Bool.eq_iff_iff, ← bitsLeft_eq_zero_iff, hleft, bitsLeft_eq_zero_iff]
    have hsr := hkeep hs (.inl he)
    rw [taken_of_not_edge he, List.append_nil]
    exact ⟨hf ▸ hactive, by rw [hleft, hcount], by rw [hf, hb]; exact hbits, by rw [hf, hsr]; exact hready,
      by rw [hf, hsr]; exact hsampled⟩
  | true =>
    cases hf : u.fsm with
    | idle => exact absurd hf hactive
    | setup =>
      have hnext := hsetup he hf
      have hcounted := stepNext_bitsLeft_of_countEdge hr ⟨he, .inl ⟨hmode, hf⟩⟩ (hbits (by simp [hf]))
      rw [taken_of_sample he hf]
      refine ⟨by simp [hnext], ?_, fun hh => absurd hnext hh, fun hh => absurd hnext hh, fun _ => ⟨by simp, ?_⟩⟩
      · rw [List.length_append, List.length_singleton]
        omega
      · rw [stepNext_sr_of_sample hr he hf, hlsb, hready (by simp [hf]), afterSamples_append]
    | hold =>
      have hb := bits_left_of_not_done he hf hd
      have hnext := hgo he hf (.inl hb)
      have hleft := stepNext_bitsLeft_kept hr hs (.inl (by simp [countEdge, hmode, hf]))
      have hpos := (bitsLeft_pos_iff u).2 hb
      obtain ⟨hne, hsr⟩ := hsampled hf
      rw [taken_of_not_setup (by simp [hf]), List.append_nil]
      refine ⟨by simp [hnext], by rw [hleft, hcount], fun _ => (bitsLeft_pos_iff _).1 (by omega), fun _ => ?_,
        by simp [hnext]⟩
      rw [stepNext_sr_of_shift hr he hf hb, hlsb, hsr, beforeSample_of_ne_nil _ _ hne]
    | wait =>
      have hb := hbits (by simp [hf])
      have hnext := (hwait he hf).trans (if_neg (by simp [hb]))
      have hleft := stepNext_bitsLeft_kept hr hs (.inl (not_countEdge_of_wait hf))
      have hpos := (bitsLeft_pos_iff u).2 hb
      rw [taken_of_not_setup (by simp [hf]), List.append_nil]
      refine ⟨by simp [hnext], by rw [hleft, hcount], fun _ => (bitsLeft_pos_iff _).1 (by omega), fun _ => ?_,
        by simp [hnext]⟩
      rw [hkeep hs (.inr (.inr (.inl hf))), hready (by simp [hf])]

/-! ## Whole transfers -/

/-- From the start edge in `s` the first done pulse comes after `m` cycles: what the statements on whole transfers
suppose of a run. -/
structure TransferRun (s : State) (m : Nat) : Prop where
  mode : s.par.bitcountEnable = .sample
  start : s.start = true
  edge : s.edge = true
  bits : 1 ≤ s.xferWriteLength.toNat + s.xferReadLength.toNat
  pos : 0 < m
  done : (s.after m).done = true
  first : ∀ j, 0 < j → j < m → (s.after j).done = false
  reset : s.resetFree m
  lsbFirst : ∀ j, 0 < j → j ≤ m → (s.after j).cfg.lsbFirst = s.cfg.lsbFirst

/-- The invariant holds from the cycle after the start edge to the done pulse. -/
theorem TransferRun.inv {s : State} {m : Nat} (h : TransferRun s m) {k : Nat} (hk : k < m) :
    TransferInv s.cfg.lsbFirst s.dataWrite (s.xferWriteLength.toNat + s.xferReadLength.toNat)
      ((stepNext s).samples k) (s.after (k + 1)) := by
  induction k with
  | zero => exact transferInv_of_start (h.reset 0 hk) h.start h.edge h.bits _
  | succ n ih =>
    rw [samples_succ, stepNext_after]
    exact (ih (by omega)).step (by rw [after_par, h.mode]) (h.reset _ hk) (h.first _ (by omega) hk)
      (h.lsbFirst _ (by omega) hk.le)

/-- At the done pulse no bit is left, so every bit has been sampled. -/
theorem TransferRun.result {s : State} {m : Nat} (h : TransferRun s m) :
    ((stepNext s).samples (m - 1)).length = s.xferWriteLength.toNat + s.xferReadLength.toNat ∧
    (s.after m).sr = afterSamples s.cfg.lsbFirst s.dataWrite ((stepNext s).samples (m - 1)) := by
  have hlast : m - 1 + 1 = m := Nat.sub_add_cancel h.pos
  have hinv := h.inv (k := m - 1) (by omega)
  rw [hlast] at hinv
  obtain ⟨-, hb, hf⟩ := (done_iff _).1 h.done
  have hcount := hinv.count
  rw [(bitsLeft_eq_zero_iff _).2 hb] at hcount
  exact ⟨hcount, (hinv.sampled hf).2⟩

/-- Settles O55: the invariant, read at the done pulse. -/
theorem transferShiftsOutAndSamplesEveryBit : Obligations.TransferShiftsOutAndSamplesEveryBit :=
  fun _ _ hmode hs he hn hpos hd hfirst hrst _ hlsb =>
    TransferRun.result ⟨hmode, hs, he, hn, hpos, hd, hfirst, hrst, hlsb⟩

/-- A sample of the output bit is a loopback sample, the first one or a further one (R160). -/
theorem afterSamples_append_serialOut {lsbFirst : Bool} {d : Word} {ins : List Bool}
    (h : ins ≠ [] → afterSamples lsbFirst d ins = afterLoopback lsbFirst d (ins.length - 1)) :
    afterSamples lsbFirst d (ins ++ [serialOut lsbFirst (beforeSample lsbFirst d ins)]) =
      afterLoopback lsbFirst d ins.length := by
  rw [afterSamples_append]
  by_cases hne : ins = []
  · rw [hne]
    rfl
  · obtain ⟨n, hn⟩ : ∃ n, ins.length = n + 1 :=
      ⟨ins.length - 1, (Nat.sub_add_cancel (List.length_pos_of_ne_nil hne)).symm⟩
    rw [beforeSample_of_ne_nil _ _ hne, h hne, hn]
    rfl

/-- Where every input is the output bit, the samples taken so far are loopback samples. -/
theorem TransferRun.loopback {s : State} {m : Nat} (h : TransferRun s m)
    (hloop : ∀ j, 0 < j → j < m → (s.after j).edge = true → (s.after j).fsm = .setup →
      sampledInput (s.after j) = (s.after j).o) {k : Nat} (hk : k < m) (hne : (stepNext s).samples k ≠ []) :
    afterSamples s.cfg.lsbFirst s.dataWrite ((stepNext s).samples k) =
      afterLoopback s.cfg.lsbFirst s.dataWrite (((stepNext s).samples k).length - 1) := by
  induction k with
  | zero => exact absurd rfl hne
  | succ n ih =>
    have hbefore := ih (by omega)
    rw [samples_succ, stepNext_after] at hne ⊢
    by_cases htaken : (s.after (n + 1)).edge = true ∧ (s.after (n + 1)).fsm = .setup
    · obtain ⟨he, hf⟩ := htaken
      have hinput : sampledInput (s.after (n + 1)) =
          serialOut s.cfg.lsbFirst (beforeSample s.cfg.lsbFirst s.dataWrite ((stepNext s).samples n)) := by
        rw [hloop _ (by omega) hk he hf, State.o, h.lsbFirst _ (by omega) hk.le,
          (h.inv (by omega : n < m)).ready (by simp [hf])]
      rw [taken_of_sample he hf, hinput, afterSamples_append_serialOut hbefore]
      simp
    · have hnil : (s.after (n + 1)).taken = [] := if_neg htaken
      rw [hnil, List.append_nil] at hne ⊢
      exact hbefore hne

/-- Settles O56: all samples of the transfer are loopback samples, and there are N of them. -/
theorem loopbackTransferObeysThePeriodicityLaw : Obligations.LoopbackTransferObeysThePeriodicityLaw := by
  intro s m hmode hs he hn hpos hd hfirst hrst _ hlsb hloop
  have hrun : TransferRun s m := ⟨hmode, hs, he, hn, hpos, hd, hfirst, hrst, hlsb⟩
  obtain ⟨hlen, hsr⟩ := hrun.result
  rw [hsr, hrun.loopback hloop (by omega) (List.ne_nil_of_length_pos (by omega)), hlen]

end Sys2Proof.Machine
end

section
/-! `offline` gates the pins only (spec/45_pins.md R276): every operation a cycle is built from takes two states that
differ in `offline`, and in what shows it, to two states that differ in no more. -/

namespace Sys2Proof.Machine

/-! ## Words, outputs and states that differ in what shows `offline` -/

/-- Two words agree in every bit above bit 0, the place of `offline` in a `config` word (R104). -/
def AgreeAboveBit0 (x y : Word) : Prop := ∀ k, 0 < k → y.getLsbD k = x.getLsbD k

theorem AgreeAboveBit0.refl (x : Word) : AgreeAboveBit0 x x := fun _ _ => rfl

theorem configWord_agree (c : Cfg) (b active pending : Bool) :
    AgreeAboveBit0 (configWord c active pending) (configWord { c with offline := b } active pending) := by
  intro k hk
  by_cases h32 : k < 32
  · rw [getLsbD_configWord _ _ _ _ h32, getLsbD_configWord _ _ _ _ h32, if_neg hk.ne', if_neg hk.ne']
  · rw [BitVec.getLsbD_of_ge _ _ (by omega), BitVec.getLsbD_of_ge _ _ (by omega)]

/-- Two outputs agree but for the pins' drive and bit 0 of the word. -/
structure OutputsAgree (o o' : Outputs) : Prop where
  ack : o'.ack = o.ack
  rdat : AgreeAboveBit0 o.rdat o'.rdat
  clk : o'.clk.level = o.clk.level
  mosi : o'.mosi.level = o.mosi.level
  csLines : o'.csLines.map Pin.level = o.csLines.map Pin.level

/-- `s` with other values of `offline`, of the adapter's word and of the outputs. -/
def offlineTwin (b : Bool) (w : Word) (o : Outputs) (s : State) : State :=
  { s with cfg := { s.cfg with offline := b }, wb := { s.wb with datR := w }, out := o }

theorem differInOffline_offlineTwin {b : Bool} {w : Word} {o : Outputs} {s : State}
    (hw : AgreeAboveBit0 s.wb.datR w) (ho : OutputsAgree s.out o) : DifferInOffline s (offlineTwin b w o s) :=
  ⟨rfl, hw, ho.ack, ho.rdat, ho.clk, ho.mosi, ho.csLines⟩

/-- The relation is: a twin, whose word and outputs agree in what does not show `offline`. -/
theorem DifferInOffline.exists_twin {s u : State} (h : DifferInOffline s u) :
    ∃ b w o, u = offlineTwin b w o s ∧ AgreeAboveBit0 s.wb.datR w ∧ OutputsAgree s.out o :=
  ⟨_, _, _, h.state, h.datR, h.ack, h.rdat, h.clk, h.mosi, h.csLines⟩

theorem DifferInOffline.outputsAgree {s u : State} (h : DifferInOffline s u) : OutputsAgree s.out u.out :=
  ⟨h.ack, h.rdat, h.clk, h.mosi, h.csLines⟩

/-- No signal of the cycle depends on `offline`. -/
theorem DifferInOffline.signals {s u : State} (h : DifferInOffline s u) :
    u.par = s.par ∧ u.pinIn = s.pinIn ∧ u.presented = s.presented ∧ u.start = s.start ∧ u.done = s.done ∧
      u.tick = s.tick := by
  obtain ⟨b, w, o, rfl, -⟩ := h.exists_twin
  exact ⟨rfl, rfl, rfl, rfl, rfl, rfl⟩

/-- The pins' levels do not depend on `offline` (R271, R272, R274). -/
theorem DifferInOffline.outputs {s u : State} (h : DifferInOffline s u) (ack : Bool) {rdat rdat' : Word}
    (hr : AgreeAboveBit0 rdat rdat') : OutputsAgree (s.outputs ack rdat) (u.outputs ack rdat') := by
  obtain ⟨b, w, o, rfl, -⟩ := h.exists_twin
  refine ⟨rfl, hr, rfl, rfl, ?_⟩
  simp only [State.outputs, State.csLines, List.map_map]
  rfl

/-! ## The operations -/

theorem DifferInOffline.coreNext {s u : State} (h : DifferInOffline s u) :
    DifferInOffline (coreNext s) (coreNext u) := by
  obtain ⟨b, w, o, rfl, hw, ho⟩ := h.exists_twin
  exact differInOffline_offlineTwin hw ho

theorem DifferInOffline.setOut {s u : State} (h : DifferInOffline s u) {o o' : Outputs} (ho : OutputsAgree o o') :
    DifferInOffline (setOut o s) (setOut o' u) := by
  obtain ⟨b, w, o, rfl, hw, -⟩ := h.exists_twin
  exact differInOffline_offlineTwin hw ho

theorem DifferInOffline.setWb {s u : State} (h : DifferInOffline s u) {x : Wb} {w : Word}
    (hw : AgreeAboveBit0 x.datR w) : DifferInOffline (setWb x s) (setWb { x with datR := w } u) := by
  obtain ⟨b, w, o, rfl, -, ho⟩ := h.exists_twin
  exact differInOffline_offlineTwin hw ho

theorem DifferInOffline.raiseBus {s u : State} (h : DifferInOffline s u) :
    DifferInOffline (raise .bus s) (raise .bus u) := by
  obtain ⟨b, w, o, rfl, hw, ho⟩ := h.exists_twin
  exact differInOffline_offlineTwin hw ho

theorem DifferInOffline.accessCommit {s u : State} (h : DifferInOffline s u) (i : Instr) :
    DifferInOffline (accessCommit i s) (accessCommit i u) := by
  obtain ⟨b, w, o, rfl, hw, ho⟩ := h.exists_twin
  cases i <;> exact differInOffline_offlineTwin hw ho

/-- The script goes on by the acknowledge and by bits 1 and 2 of a poll's word, none of which shows `offline`. -/
theorem hostNext_of_outputsAgree (l : List HostOp) {o o' : Outputs} (h : OutputsAgree o o') :
    hostNext l o' = hostNext l o := by
  have hpoll : (o'.rdat &&& 6 == 0) = (o.rdat &&& 6 == 0) := by
    rw [Bool.eq_iff_iff, beq_iff_eq, beq_iff_eq, and_six_eq_zero_iff, and_six_eq_zero_iff,
      h.rdat 1 (by decide), h.rdat 2 (by decide)]
  cases l with
  | nil => rfl
  | cons op rest =>
    have hover : op.over o' = op.over o := by
      cases op with
      | line r => exact h.ack
      | once r => rfl
      | idle => rfl
      | poll => simp only [HostOp.over, h.ack, hpoll]
    rw [hostNext, hostNext, hover]

theorem DifferInOffline.advance {s u : State} (h : DifferInOffline s u) :
    DifferInOffline (advance s) (advance u) := by
  obtain ⟨b, w, o, rfl, hw, ho⟩ := h.exists_twin
  have hadvance : Machine.advance (offlineTwin b w o s) = offlineTwin b w o (Machine.advance s) := by
    simp only [Machine.advance, offlineTwin, hostNext_of_outputsAgree s.host ho]
  rw [hadvance]
  exact differInOffline_offlineTwin hw ho

theorem DifferInOffline.resetCycle {s u : State} (h : DifferInOffline s u) :
    DifferInOffline (resetCycle s) (resetCycle u) := by
  have hout := h.outputs false (.refl (Config.freeRdat s.tick))
  obtain ⟨b, w, o, rfl, -⟩ := h.exists_twin
  exact differInOffline_offlineTwin (b := true) (w := 0) (.refl 0) hout

/-! ## Cycles and steps -/

theorem DifferInOffline.accessReady {s u : State} (h : DifferInOffline s u) (i : Instr) :
    accessReady i u = accessReady i s := by
  obtain ⟨b, w, o, rfl, -⟩ := h.exists_twin
  cases i <;> rfl

theorem DifferInOffline.accessPerformed {s u : State} (h : DifferInOffline s u) (i : Instr) :
    accessPerformed i u = accessPerformed i s := by
  rw [Machine.accessPerformed, Machine.accessPerformed, h.accessReady]
  obtain ⟨b, w, o, rfl, -⟩ := h.exists_twin
  rfl

theorem DifferInOffline.accessLive {s u : State} (h : DifferInOffline s u) (i : Instr) :
    AgreeAboveBit0 (accessLive i s) (accessLive i u) := by
  obtain ⟨b, w, o, rfl, -⟩ := h.exists_twin
  cases i with
  | rdData | rdXfer | wrData | wrXfer => exact .refl _
  | rdConfig | rdConfig3 | wrConfig | wrConfig3 => exact configWord_agree s.cfg b _ _

theorem DifferInOffline.accessRegistered {s u : State} (h : DifferInOffline s u) (i : Instr) :
    AgreeAboveBit0 (accessRegistered i s) (accessRegistered i u) := by
  obtain ⟨b, w, o, rfl, -⟩ := h.exists_twin
  cases i with
  | rdData | rdXfer | wrData | wrXfer => exact .refl _
  | rdConfig | rdConfig3 | wrConfig | wrConfig3 => exact configWord_agree s.cfg b _ _

/-- Under the adapter the outputs are the adapter's registers, whose word may show `offline`. -/
theorem DifferInOffline.adapterOutputs {s u : State} (h : DifferInOffline s u) :
    OutputsAgree (s.outputs s.wb.ack s.wb.datR) (u.outputs u.wb.ack u.wb.datR) := by
  have hout := h.outputs s.wb.ack h.datR
  obtain ⟨b, w, o, rfl, -⟩ := h.exists_twin
  exact hout

/-- The adapter's next registers differ in the registered word only. -/
theorem DifferInOffline.wbNext {s u : State} (h : DifferInOffline s u) (req ready : Bool) (mux mux' : Word) :
    u.wbNext req ready mux' = { s.wbNext req ready mux with datR := mux' } := by
  obtain ⟨b, w, o, rfl, -⟩ := h.exists_twin
  rfl

/-- Under the adapter an access's cycle without its commit, by the operations it is built from. -/
theorem accessBase_eq_of_adapter {s : State} (h : s.par.busAdapter = .wbRegistered) (i : Instr) :
    accessBase i s = Machine.setOut (s.outputs s.wb.ack s.wb.datR)
      (Machine.setWb (s.wbNext true (Machine.accessReady i s) (Machine.accessRegistered i s))
        (Machine.coreNext s)) := by
  cases hw : i.we <;> simp [accessBase, hw, readCycle, writeBase, h, accessReady_of_read]

theorem DifferInOffline.accessBase {s u : State} (h : DifferInOffline s u) (i : Instr) :
    DifferInOffline (accessBase i s) (accessBase i u) := by
  obtain ⟨hpar, -, -, -, -, htick⟩ := h.signals
  cases hb : s.par.busAdapter with
  | atomic =>
    have hb' : u.par.busAdapter = .atomic := by rw [hpar, hb]
    rw [accessBase_eq_of_atomic hb, accessBase_eq_of_atomic hb', (accessBase_of_atomic hb i).2,
      (accessBase_of_atomic hb' i).2, h.accessReady, htick]
    refine h.coreNext.setOut (h.outputs _ ?_)
    split
    · exact .refl _
    · exact h.accessLive i
  | wbRegistered =>
    have hb' : u.par.busAdapter = .wbRegistered := by rw [hpar, hb]
    rw [accessBase_eq_of_adapter hb, accessBase_eq_of_adapter hb', h.accessReady,
      h.wbNext _ _ (Machine.accessRegistered i s)]
    exact (h.coreNext.setWb (h.accessRegistered i)).setOut h.adapterOutputs

theorem DifferInOffline.accessNext {s u : State} (h : DifferInOffline s u) (i : Instr) :
    DifferInOffline (accessNext i s) (accessNext i u) := by
  rw [Machine.accessNext, Machine.accessNext, h.accessPerformed]
  split
  · exact (h.accessBase i).accessCommit i
  · exact h.accessBase i

theorem DifferInOffline.idleCycle {s u : State} (h : DifferInOffline s u) :
    DifferInOffline (idleCycle s) (idleCycle u) := by
  obtain ⟨hpar, -, -, -, -, htick⟩ := h.signals
  have hack : u.wb.ack = s.wb.ack := h.adapterOutputs.ack
  rw [Machine.idleCycle, Machine.idleCycle, hpar, htick]
  cases s.par.busAdapter with
  | atomic => exact h.coreNext.setOut (h.outputs _ (.refl _))
  | wbRegistered =>
    have hn := (h.coreNext.setWb (x := s.wbNext false false (Config.freeDatR s.tick)) (.refl _)).setOut h.adapterOutputs
    rw [← h.wbNext] at hn
    simp only [hack] at hn ⊢
    split
    · exact hn.raiseBus
    · exact hn

theorem DifferInOffline.stepNext {s u : State} (h : DifferInOffline s u) :
    DifferInOffline (stepNext s) (stepNext u) := by
  obtain ⟨-, hpin, hpresented, -⟩ := h.signals
  cases hr : s.pinIn.rst with
  | true =>
    rw [stepNext_of_reset hr, stepNext_of_reset (hpin ▸ hr)]
    exact h.resetCycle.advance
  | false =>
    have hr' : u.pinIn.rst = false := hpin ▸ hr
    cases hp : s.presented with
    | none =>
      rw [stepNext_of_not_presented hr hp, stepNext_of_not_presented hr' (hpresented ▸ hp)]
      exact h.idleCycle.advance
    | some i =>
      rw [stepNext_of_presented hr hp, stepNext_of_presented hr' (hpresented ▸ hp)]
      exact (h.accessNext i).advance

/-- Settles O57: every operation of a step keeps the relation, and no signal shows `offline`. -/
theorem offlineIsInvisibleToTheRun : Obligations.OfflineIsInvisibleToTheRun := by
  intro s u t v h ht hv
  cases eq_stepNext ht
  cases eq_stepNext hv
  obtain ⟨-, -, -, hstart, hdone, -⟩ := h.signals
  exact ⟨h.stepNext, hstart, hdone⟩

/-! ## One access under ATOMIC -/

/-- A read, and a write of another register than `config`, leave the `config` fields alone. -/
theorem accessNext_cfg {i : Instr} (h : i.we = false ∨ i.idx.toNat < 2) (s : State) :
    (accessNext i s).cfg = s.cfg := by
  have hcommit (n : State) : (accessCommit i n).cfg = n.cfg := by
    cases i with
    | wrConfig w | wrConfig3 w => simp [Instr.we, Instr.idx] at h
    | rdData | rdXfer | rdConfig | rdConfig3 | wrData | wrXfer => rfl
  have hbase := (accessBase_nothingWritten i s).cfg
  rw [accessNext]
  split
  · rw [hcommit, hbase]
  · exact hbase

/-- A `config` write under ATOMIC stores its word's fields. -/
theorem accessNext_offline_of_config_write {s s' : State} {i : Instr} (ha : s.par.busAdapter = .atomic)
    (ha' : s'.par.busAdapter = .atomic) (hw : i.we = true) (hi : 2 ≤ i.idx.toNat) :
    (accessNext i s').cfg.offline = (accessNext i s).cfg.offline := by
  cases i with
  | wrConfig w | wrConfig3 w =>
    rw [accessNext_of_performed (accessPerformed_of_atomic ha' _),
      accessNext_of_performed (accessPerformed_of_atomic ha _)]
    rfl
  | rdData | rdXfer | rdConfig | rdConfig3 => simp [Instr.we] at hw
  | wrData | wrXfer => simp [Instr.idx] at hi

/-- Only a `config` read shows `offline` in its answer. -/
theorem accessNext_rdat_withOffline {s : State} {i : Instr} (ha : s.par.busAdapter = .atomic)
    (h : i.we = true ∨ i.idx.toNat < 2) (b : Bool) :
    (accessNext i (withOffline b s)).out.rdat = (accessNext i s).out.rdat := by
  rw [(accessNext_registersOnly i _).out, (accessNext_registersOnly i s).out, (accessBase_of_atomic ha i).2,
    (accessBase_of_atomic (s := withOffline b s) ha i).2]
  cases i with
  | rdConfig | rdConfig3 => simp [Instr.we, Instr.idx] at h
  | rdData | rdXfer | wrData | wrXfer | wrConfig | wrConfig3 => rfl

/-- States that differ in `offline` and the outputs, but not in the adapter's word. -/
theorem DifferInOffline.sameButOutputs {t u : State} {b : Bool} (h : DifferInOffline t u) (hb : u.cfg.offline = b)
    (hw : u.wb.datR = t.wb.datR) : SameButOutputs (withOffline b t) u := by
  obtain ⟨b', w, o, rfl, -⟩ := h.exists_twin
  cases hb
  cases hw
  rfl

/-- Settles O46: the relation of O57 after one access, sharpened by what the access does to `offline`, to the adapter's
word and to the answer. -/
theorem offlineGatesOnlyThePins : Obligations.OfflineGatesOnlyThePins := by
  intro i s b ha
  have h := (differInOffline_withOffline b s).accessNext i
  have hwb : (accessNext i (withOffline b s)).wb.datR = (accessNext i s).wb.datR := by
    rw [accessNext_wb_of_atomic ha, accessNext_wb_of_atomic (s := withOffline b s) ha]
    rfl
  refine ⟨_, _, exec_eq i s, exec_eq i _, h.ack, h.rdat, fun hi => accessNext_rdat_withOffline ha hi b,
    fun hi => h.sameButOutputs ?_ hwb, fun hw hi => ?_⟩
  · rw [accessNext_cfg hi]
    rfl
  · exact h.sameButOutputs (accessNext_offline_of_config_write ha (s' := withOffline b s) ha hw hi) hwb

end Sys2Proof.Machine
end
